-- ==== Sys2Proof/Word.lean ====
section
/-! DEFINITION. The word types of the wire (00_scope.md R6): a byte and the unsigned integers of 16, 32 and 64 bits.
Everything in the block is unsigned. -/

namespace Sys2Proof

abbrev Byte := BitVec 8

abbrev U16 := BitVec 16

abbrev U32 := BitVec 32

abbrev U64 := BitVec 64

end Sys2Proof
end

