-- ==== Sys2Proof/Config.lean ====
section
/-! DEFINITION. What an instance fixes (00_scope.md R5, 10_state.md R36) and the free values of the drive store
(20_memory.md R57). The parameters are plain data held in State, so that a claim about every state is a claim about every
instance (log 1). -/

namespace Sys2Proof

/-- The STORE parameter (R5, R57, R58): the reference store, or any store within the bounds of R57, whose answers are
draws. -/
inductive StoreModel where
  | reference
  | oracle
  deriving DecidableEq, Repr

/-- TIER_TABLE (R5, 45_drive_table.md R212): two byte thresholds and three track counts. -/
structure TierTable where
  t1 : Nat
  t2 : Nat
  c1 : Nat
  c2 : Nat
  c3 : Nat
  deriving DecidableEq, Repr

/-- The parameters of 00_scope.md R5. -/
structure Params where
  nDrives     : Nat
  maxTrackLen : Nat
  tiers       : TierTable
  ctrW        : Nat
  store       : StoreModel
  deriving DecidableEq, Repr

/-- The legal values of R5's table. -/
def Params.wf (p : Params) : Bool :=
  decide (1 ≤ p.nDrives ∧ p.nDrives ≤ 16) && decide (p.maxTrackLen ≤ 65535) && decide (p.tiers.t1 < p.tiers.t2) &&
    decide (1 ≤ p.tiers.c1 ∧ p.tiers.c1 ≤ 4096) && decide (1 ≤ p.tiers.c2 ∧ p.tiers.c2 ≤ 4096) &&
    decide (1 ≤ p.tiers.c3 ∧ p.tiers.c3 ≤ 4096) && decide (1 ≤ p.ctrW)

/-- The default tiers of R5 (92 D4). -/
def TierTable.standard : TierTable := { t1 := 200000, t2 := 500000, c1 := 34, c2 := 76, c3 := 2047 }

/-- DESIGN CHOICE (log 1): the instance `State.reset` is in, the test configuration of 92 D32. It is no value of the
product: N_DRIVES, MAX_TRACK_LEN and STORE are OPEN in R5. -/
def Params.testConfig : Params :=
  { nDrives := 4, maxTrackLen := 16, tiers := .standard, ctrW := 32, store := .reference }

/-- One answer of a store within R57, as much of it as the primitive asked needs:
`seekOk` and `seekPos` for a StoreSeek (whether it succeeds, and the position a failed one leaves);
`count` for a StoreRead (at most how many bytes come back) and a StoreWrite (at most how many are taken);
`data` for a StoreRead after a failed seek (what comes back, 93 I3);
`rest` for a short StoreWrite (what the bytes after the taken ones hold, 93 I4);
`size` and `gap` for a StoreWrite past the end (how far the store extends the file, and with what from its old end on,
93 I5). -/
structure StoreDraw where
  seekOk  : Bool
  seekPos : Nat
  count   : Nat
  data    : List Byte
  rest    : List Byte
  size    : Nat
  gap     : List Byte
  deriving DecidableEq, Repr, Inhabited

/-- FREE VALUE (log 9): the n-th answer of a store within R57 that no list of answers in the state gives. -/
opaque Config.freeDraw : Nat → StoreDraw

end Sys2Proof
end

