-- ==== Sys2Proof/Syntax.lean ====
section
/-! DEFINITION. The instructions: one constructor for each row of spec/opcode_table.json. A row is a unit of the wire, a
frame or a track block, in one direction (30_encoding.md R70, R75 to R84). -/

namespace Sys2Proof

/-- The readiness code of a WRIT response (44_writ.md R181; 30_encoding.md R79). -/
inductive Readiness where
  | ok
  | notReady
  deriving DecidableEq, Repr

/-- The outcome of a WSTA response (44_writ.md R188; 30_encoding.md R79): NOT_READY is never emitted in a WSTA. -/
inductive WstaCode where
  | ok
  | checksumError
  | writeError
  deriving DecidableEq, Repr

/-- The eight rows of the opcode table. A frame's checksum is no operand: a frame is the row only if it is well-checked
(R72). The trailer of a DATA block is one, because the commit step compares it (R189). -/
inductive Instr where
  /-- STAT request (42_stat.md R150): `sel = param1[7:0]`, `hl = param1[15:8]`, `trk = param2`. -/
  | stat (sel hl : BitVec 8) (trk : U16)
  /-- READ request (43_read.md R160): `drv = param1[15:12]`, `trk = param1[11:0]`, `len = param2`. -/
  | read (drv : BitVec 4) (trk : BitVec 12) (len : U16)
  /-- WRIT request (44_writ.md R180), laid out as READ. -/
  | writ (drv : BitVec 4) (trk : BitVec 12) (len : U16)
  /-- STAT response (42_stat.md R154): `map = param2`. -/
  | statResp (map : U16)
  /-- WRIT readiness response (44_writ.md R182). -/
  | writRdy (r : Readiness)
  /-- WSTA response (44_writ.md R188). -/
  | wsta (o : WstaCode)
  /-- READ response, a track block (43_read.md R165): the data; its trailer is their checksum. -/
  | track (bytes : List Byte)
  /-- WRIT payload, a track block (44_writ.md R185): the payload and the trailer as received. -/
  | data (payload : List Byte) (k : U16)
  deriving DecidableEq, Repr

end Sys2Proof
end

