-- ==== Sys2Proof/WellFormed.lean ====
section
/-! DEFINITION. Which terms of Instr stand for a unit of the wire. Every operand of a frame has exactly the width of its
field, so a frame is always well formed (30_encoding.md R86: no field holds must-be-zero bits); a track block has 0 to
MAX_TRACK_LEN data bytes (the opcode table's rows TRACK and DATA). -/

namespace Sys2Proof

/-- A track block's data is no longer than MAX_TRACK_LEN (10_state.md R24; the table's rows TRACK and DATA). -/
def blockFits (p : Params) (data : List Byte) : Bool := decide (data.length ≤ p.maxTrackLen)

def Instr.wf (p : Params) : Instr → Bool
  | .stat _ _ _ => true
  | .read _ _ _ => true
  | .writ _ _ _ => true
  | .statResp _ => true
  | .writRdy _ => true
  | .wsta _ => true
  | .track bytes => blockFits p bytes
  | .data payload _ => blockFits p payload

end Sys2Proof
end

