-- ==== Sys2Proof/Decode.lean ====
section
/-! DEFINITION. The checksum, the frame codec (40_checksum_codec.md), the decoder, total on any bytes and rejecting by
name, and the encoder. Which decoder reads some bytes depends on the engine state and the direction only
(30_encoding.md R76, R87), so a decoder takes that as its context. -/

namespace Sys2Proof

/-! ## Checksum and byte order -/

/-- R100: the sum of the bytes modulo 2^16. It is no CRC (90 C1). -/
def checksum (s : List Byte) : U16 := s.foldl (fun acc x => acc + x.zeroExtend 16) 0

/-- R7, R51: the two bytes of a u16, the less significant first. -/
def le16 (v : U16) : List Byte := [v.extractLsb' 0 8, v.extractLsb' 8 8]

/-- R7: the little-endian u16 at index `i`. A byte past the end reads 0: no rule reads one. -/
def rd16 (s : List Byte) (i : Nat) : U16 := (s.getD (i + 1) 0 ++ s.getD i 0 : BitVec (8 + 8))

/-! ## Frame codec (R71, R102 to R106, R114, R115) -/

/-- A frame's four fields. The tag is four raw bytes in wire order (R52, R73). -/
structure Frame where
  tag      : List Byte
  param1   : U16
  param2   : U16
  checksum : U16
  deriving DecidableEq, Repr

/-- R102. It validates nothing. -/
def decodeFrame (b : List Byte) : Frame :=
  { tag := b.take 4, param1 := rd16 b 4, param2 := rd16 b 6, checksum := rd16 b 8 }

/-- R103. -/
def encodeFrame (f : Frame) : List Byte := f.tag ++ le16 f.param1 ++ le16 f.param2 ++ le16 f.checksum

/-- R106. -/
def wellChecked (b : List Byte) : Bool := checksum (b.take 8) == rd16 b 8

/-- R115: a track block, the bytes and then their checksum. -/
def makeTrack (p : List Byte) : List Byte := p ++ le16 (checksum p)

/-- R114: eight bytes of tag and parameters, then their checksum. -/
def makeFrame (tag : List Byte) (p1 p2 : U16) : List Byte := makeTrack (tag ++ le16 p1 ++ le16 p2)

/-! ## Tags (R75) and response codes (R79) -/

def tagSTAT : List Byte := [0x53, 0x54, 0x41, 0x54]

def tagREAD : List Byte := [0x52, 0x45, 0x41, 0x44]

def tagWRIT : List Byte := [0x57, 0x52, 0x49, 0x54]

def tagWSTA : List Byte := [0x57, 0x53, 0x54, 0x41]

/-- R79: 0x0000 OK, 0x0001 NOT_READY. -/
def readinessCode : Readiness → U16
  | .ok => 0x0000
  | .notReady => 0x0001

/-- R79: 0x0000 OK, 0x0002 CHECKSUM_ERROR, 0x0003 WRITE_ERROR. -/
def outcomeCode : WstaCode → U16
  | .ok => 0x0000
  | .checksumError => 0x0002
  | .writeError => 0x0003

def readinessOf (v : U16) : Option Readiness :=
  if v = 0x0000 then some .ok else if v = 0x0001 then some .notReady else none

def outcomeOf (v : U16) : Option WstaCode :=
  if v = 0x0000 then some .ok else if v = 0x0002 then some .checksumError
  else if v = 0x0003 then some .writeError else none

/-! ## The decoder -/

/-- What the reader of some bytes knows before it reads them: the direction and, for a track block, its length, which the
block does not carry (R87). `rx` is what the engine receives, `tx` what it emits. -/
inductive Ctx where
  | rxFrame
  | rxBlock (len : U16)
  | txFrame
  | txBlock (len : U16)
  deriving DecidableEq, Repr

/-- Why some bytes are no instruction of their context. -/
inductive Reject where
  /-- A frame is 10 bytes (R70); a track block is `len + 2` (R74). -/
  | badLength
  /-- The frame is not well-checked (R85, R112). -/
  | frameChecksum
  /-- A received, well-checked frame whose tag is not exactly STAT, READ or WRIT (R85, R124). -/
  | unknownCommand
  /-- A frame the engine never emits: another tag, or a code or `param2` outside R78, R79, R82, R84. -/
  | notAResponse
  /-- An emitted track block whose trailer is not the checksum of its data (R165). -/
  | blockChecksum
  deriving DecidableEq, Repr

/-- Dispatch of a received, well-checked frame by exact tag match (R76, R77, R80, R123). -/
def decodeCommand (f : Frame) : Except Reject Instr :=
  if f.tag = tagSTAT then .ok (.stat (f.param1.extractLsb' 0 8) (f.param1.extractLsb' 8 8) f.param2)
  else if f.tag = tagREAD then .ok (.read (f.param1.extractLsb' 12 4) (f.param1.extractLsb' 0 12) f.param2)
  else if f.tag = tagWRIT then .ok (.writ (f.param1.extractLsb' 12 4) (f.param1.extractLsb' 0 12) f.param2)
  else .error .unknownCommand

/-- The reading of an emitted, well-checked frame (R78, R82, R84). -/
def decodeResponse (f : Frame) : Except Reject Instr :=
  if f.tag = tagSTAT ∧ f.param1 = 0 then .ok (.statResp f.param2)
  else if f.tag = tagWRIT ∧ f.param2 = 0 then
    match readinessOf f.param1 with
    | some r => .ok (.writRdy r)
    | none => .error .notAResponse
  else if f.tag = tagWSTA ∧ f.param2 = 0 then
    match outcomeOf f.param1 with
    | some o => .ok (.wsta o)
    | none => .error .notAResponse
  else .error .notAResponse

/-- Length, then checksum, then tag (R122). -/
def decodeChecked (read : Frame → Except Reject Instr) (bs : List Byte) : Except Reject Instr :=
  if bs.length ≠ 10 then .error .badLength
  else if wellChecked bs then read (decodeFrame bs)
  else .error .frameChecksum

/-- A received block: payload and trailer, the trailer not compared (R74, R83). -/
def decodeData (len : U16) (bs : List Byte) : Except Reject Instr :=
  if bs.length ≠ len.toNat + 2 then .error .badLength
  else .ok (.data (bs.take len.toNat) (rd16 bs len.toNat))

/-- An emitted block: its trailer is the checksum of its data (R81, R165). -/
def decodeTrack (len : U16) (bs : List Byte) : Except Reject Instr :=
  if bs.length ≠ len.toNat + 2 then .error .badLength
  else if rd16 bs len.toNat = checksum (bs.take len.toNat) then .ok (.track (bs.take len.toNat))
  else .error .blockChecksum

def decode : Ctx → List Byte → Except Reject Instr
  | .rxFrame, bs => decodeChecked decodeCommand bs
  | .txFrame, bs => decodeChecked decodeResponse bs
  | .rxBlock len, bs => decodeData len bs
  | .txBlock len, bs => decodeTrack len bs

/-! ## The encoder -/

/-- R77: `param1` of a STAT request. -/
def statParam1 (sel hl : BitVec 8) : U16 := (hl ++ sel : BitVec (8 + 8))

/-- R80: `param1` of a READ or WRIT request. -/
def trackParam1 (drv : BitVec 4) (trk : BitVec 12) : U16 := (drv ++ trk : BitVec (4 + 12))

/-- The bytes of an instruction in wire order (R71, R74, R77 to R84). -/
def encode : Instr → List Byte
  | .stat sel hl trk => makeFrame tagSTAT (statParam1 sel hl) trk
  | .read drv trk len => makeFrame tagREAD (trackParam1 drv trk) len
  | .writ drv trk len => makeFrame tagWRIT (trackParam1 drv trk) len
  | .statResp map => makeFrame tagSTAT 0x0000 map
  | .writRdy r => makeFrame tagWRIT (readinessCode r) 0x0000
  | .wsta o => makeFrame tagWSTA (outcomeCode o) 0x0000
  | .track bytes => makeTrack bytes
  | .data payload k => payload ++ le16 k

/-- The context in which an instruction's bytes are read. -/
def Instr.ctx : Instr → Ctx
  | .stat _ _ _ => .rxFrame
  | .read _ _ _ => .rxFrame
  | .writ _ _ _ => .rxFrame
  | .statResp _ => .txFrame
  | .writRdy _ => .txFrame
  | .wsta _ => .txFrame
  | .track bytes => .txBlock (BitVec.ofNat 16 bytes.length)
  | .data payload _ => .rxBlock (BitVec.ofNat 16 payload.length)

/-! ## The table's numbering of bits -/

/-- The ten bytes of a frame from a number of `nbits` bits whose bit 0 is the least significant bit of the first byte. -/
def tableBytes (nbits w : Nat) : List Byte :=
  (List.range 10).map fun i => BitVec.ofNat 8 (w % 2 ^ nbits / 256 ^ i)

/-- The instruction the engine's own decoder, that of a received frame, reads from a table word. A response frame is read
as the request with the same bytes, or refused (30_encoding.md R76, R85; log 3). -/
def decodeTableWord (nbits w : Nat) : Option Instr :=
  match decode .rxFrame (tableBytes nbits w) with
  | .ok i => some i
  | .error _ => none

end Sys2Proof
end

