-- ==== Sys2Proof/Machine/State.lean ====
section
/-! DEFINITION. The state: everything 10_state.md R20 gives the block, the parameters of its instance, and the state of the
agents its ports reach (transport, store, operator), all plain data. -/

namespace Sys2Proof.Machine

/-- ENG_STATE (R21). -/
inductive EngState where
  | awaitFrame
  | dispatch
  | writPayload
  | writCommit
  deriving DecidableEq, Repr

/-- The diagnostics of 60_exceptions.md R232. -/
inductive Diag where
  | none
  | frameChecksum
  | partialFrame
  | unknownCommand
  | invalidDrive
  | notMounted
  | lengthExceeded
  | trackRange
  | seekFailure
  | shortStoreRead
  | shortStoreWrite
  | payloadChecksum
  | shortPayload
  deriving DecidableEq, Repr

/-- An opaque reference to a backing store (R28). Nothing but equality is ever asked of one. -/
abbrev Handle := Nat

/-- One drive slot (R27 to R31). -/
structure Slot where
  mounted    : Bool
  handle     : Option Handle
  maxTrack   : U16
  curTrack   : U16
  enabled    : Bool
  headLoaded : Bool
  deriving DecidableEq, Repr

/-- A slot at its reset values (R40), which are the values of an unmounted slot (45_drive_table.md R214). -/
def Slot.empty : Slot :=
  { mounted := false, handle := none, maxTrack := 0, curTrack := 0, enabled := false, headLoaded := false }

/-- A request at the operator port (45_drive_table.md R210): MOUNT(d, h, size), the size a u64, or UNMOUNT(d). -/
inductive OpRequest where
  | mount (d : Nat) (h : Handle) (size : U64)
  | unmount (d : Nat)
  deriving DecidableEq, Repr

/-- The bytes of a file at their offsets, in one canonical form (`Memory.wf`): offsets strictly rising and no byte equal to
what an unlisted offset reads as. -/
abbrev Memory := List Host.Cell

/-- A backing store (20_memory.md R57, R58): `size` bytes, those that `cells` lists and, elsewhere below `size`, the byte an
unlisted offset reads as. -/
structure File where
  size  : Nat
  cells : Memory
  deriving DecidableEq, Repr

/-- What STATUS reads (10_state.md R38), a snapshot. -/
structure Status where
  engState : EngState
  dt       : List Slot
  statCnt  : Nat
  readCnt  : Nat
  writCnt  : Nat
  errCnt   : Nat
  lastErr  : BitVec 8
  deriving DecidableEq, Repr

/-- One step of one agent (60_exceptions.md R238, R240, R245). -/
inductive Event where
  /-- The engine's turn: its one enabled step, if any. -/
  | engine
  /-- The transport delivers a byte of the client. -/
  | byte (b : Byte)
  /-- The timer's two events. -/
  | frameDeadline
  | payloadTimeout
  /-- The operator makes a MOUNT or UNMOUNT request. -/
  | request (r : OpRequest)
  /-- The operator performs its held request (45_drive_table.md R216). -/
  | performHeld
  /-- The operator reads the status port (10_state.md R38). -/
  | status
  /-- LINK_OPEN rises or falls (R255, 70 R265). -/
  | linkUp
  | linkDown
  /-- The platform's reset (70 R260). -/
  | reset
  deriving DecidableEq, Repr

/-- Why a step stops. The spec has no architectural fault (R230); each of these is a state no rule reaches, which 93 asks a
model to fault on. Every one is SAFE: the model stops where nothing is specified. -/
inductive Fault where
  /-- Raised by the step's shape check: the instance is none of R5's legal ones (log 13). Safe. -/
  | parameters
  /-- Raised by the shape check: DT has not N_DRIVES slots. Safe. -/
  | tableSize
  /-- Raised by the shape check: TB has not MAX_TRACK_LEN + 2 bytes. Safe. -/
  | bufferSize
  /-- Raised by the shape check: FB_CNT is outside what ENG_STATE allows (R22, R120, R122). Safe. -/
  | frameCount
  /-- Raised by the shape check: TB_CNT is outside what ENG_STATE allows (R185, R189). Safe. -/
  | payloadCount
  /-- Raised by the shape check: in a WRIT state the latch holds a drive or a length no readiness of OK lets through. Safe. -/
  | latchRange
  /-- Raised by the shape check: the link is closed and the engine is not waiting with an empty frame (R255). Safe. -/
  | linkState
  /-- Raised by StoreRead and StoreWrite: the slot has no open store (R28). Safe. -/
  | noStore
  /-- Raised by the meanings of TRACK and DATA: the block does not fit TB, or is not CMD_LEN bytes. Safe. -/
  | blockLength
  deriving DecidableEq, Repr

/-- No instruction is refused; the one name is the host's, for an arm that has no meaning yet. Safe. -/
inductive Refusal where
  /-- Raised by an arm of exec without a meaning (there is none). Safe. -/
  | notModelled (mnemonic : String)
  deriving DecidableEq, Repr

structure State where
  /-- The instance (R5), which no step writes (R36). -/
  params    : Params
  /-- R21. -/
  engState  : EngState
  /-- R22. -/
  fbCnt     : Nat
  /-- R23. -/
  fb        : Vector Byte 10
  /-- R25. -/
  tbCnt     : Nat
  /-- R24. -/
  tb        : List Byte
  /-- R26. -/
  cmdDrv    : BitVec 4
  cmdTrk    : BitVec 12
  cmdLen    : U16
  /-- R27. -/
  dt        : List Slot
  /-- R33: each below 2^CTR_W. -/
  statCnt   : Nat
  readCnt   : Nat
  writCnt   : Nat
  errCnt    : Nat
  /-- R34. -/
  lastErr   : BitVec 8
  /-- R35. -/
  opPend    : Option OpRequest
  /-- The transport's receive FIFO, next byte first (R251). -/
  rx        : List Byte
  /-- The transmit stream, first byte emitted first (R252). -/
  tx        : List Byte
  /-- LINK_OPEN (R255). -/
  linkOpen  : Bool
  /-- The store agent's files, by handle (20_memory.md R57), handles strictly rising. -/
  files     : List (Handle × File)
  /-- The store's position for each slot (R57). -/
  storePos  : List Nat
  /-- The model's own: answers the store will give, oldest first (log 9). -/
  draws     : List StoreDraw
  /-- The model's own: how many free answers were used (log 9). -/
  drawCnt   : Nat
  /-- What the operator last read by STATUS (R38; log 17). -/
  statusOut : Option Status
  /-- The model's own: which agents step next (R240; log 2). -/
  turns     : List Event
  deriving DecidableEq, Repr

/-- The machine of the instance `p` right after reset (R40, 70 R260), no agent having done anything yet. FB, TB and the
latch are unspecified in R40: 0 is a DESIGN CHOICE (log 5). The link is closed until the platform opens it (70 R263;
DEDUCED, log 6). -/
def State.powerOn (p : Params) : State :=
  { params := p
    engState := .awaitFrame
    fbCnt := 0
    fb := Vector.replicate 10 0
    tbCnt := 0
    tb := List.replicate (p.maxTrackLen + 2) 0
    cmdDrv := 0
    cmdTrk := 0
    cmdLen := 0
    dt := List.replicate p.nDrives .empty
    statCnt := 0
    readCnt := 0
    writCnt := 0
    errCnt := 0
    lastErr := 0
    opPend := none
    rx := []
    tx := []
    linkOpen := false
    files := []
    storePos := List.replicate p.nDrives 0
    draws := []
    drawCnt := 0
    statusOut := none
    turns := [] }

def State.reset : State := State.powerOn Params.testConfig

end Sys2Proof.Machine
end

