-- ==== Sys2Proof/Machine/Flags.lean ====
section
/-! DEFINITION. The per-drive flags, the only flags of the block (10_state.md R31): the selection update
(41_dispatcher.md R127) and the map of mounted drives (30_encoding.md R78). -/

namespace Sys2Proof.Machine

/-- Slot `d`; the drive table has one for every drive index a rule uses. -/
def State.slot (s : State) (d : Nat) : Slot := s.dt.getD d .empty

def clearFlags (x : Slot) : Slot := { x with enabled := false, headLoaded := false }

/-- R127: clear `enabled` and `headLoaded` on every drive, then set them for drive `d`. -/
def selectDrive (d : Nat) (h : Bool) (dt : List Slot) : List Slot :=
  (dt.map clearFlags).modify d fun x => { x with enabled := true, headLoaded := h }

def State.select (d : Nat) (h : Bool) (s : State) : State := { s with dt := selectDrive d h s.dt }

/-- The number whose bit `i` is `mounted` of the i-th slot. -/
def mountBits : List Slot → Nat
  | [] => 0
  | x :: rest => x.mounted.toNat + 2 * mountBits rest

/-- R78: `map[i] = DT[i].mounted` for `i < N_DRIVES`, 0 above. -/
def State.mountMap (s : State) : U16 := BitVec.ofNat 16 (mountBits (s.dt.take s.params.nDrives))

end Sys2Proof.Machine
end

