-- ==== Sys2Proof/Machine/Operands.lean ====
section
/-! DEFINITION. What the commands compute from their operands: the index check (41_dispatcher.md R126), the head bit
(30_encoding.md R77), the store offset (20_memory.md R54) and the checks READ and WRIT share (43_read.md R161). -/

namespace Sys2Proof.Machine

/-- R126: strict and unsigned. -/
def driveOK (p : Params) (d : Nat) : Bool := decide (d < p.nDrives)

/-- R77: every non-zero value means head loaded. -/
def headBit (hl : BitVec 8) : Bool := hl != 0

/-- R54, R160: `zext_32(trk) * zext_32(len)`. -/
def trackOffset (trk : BitVec 12) (len : U16) : U32 := trk.zeroExtend 32 * len.zeroExtend 32

/-- R161, R181, R236 items 4 to 6: mounted, then length, then track, the track inclusive. The first that fails decides the
diagnostic; none if all pass. -/
def trackCheck (d : Nat) (trk : BitVec 12) (len : U16) (s : State) : Option Diag :=
  if !(s.slot d).mounted then some .notMounted
  else if len.toNat > s.params.maxTrackLen then some .lengthExceeded
  else if trk.zeroExtend 16 > (s.slot d).maxTrack then some .trackRange
  else none

/-- R30: `DT[d].curTrack <- t`. -/
def State.setCurTrack (d : Nat) (t : U16) (s : State) : State :=
  { s with dt := s.dt.modify d fun x => { x with curTrack := t } }

/-- R184: the command latch. -/
def State.latch (drv : BitVec 4) (trk : BitVec 12) (len : U16) (s : State) : State :=
  { s with cmdDrv := drv, cmdTrk := trk, cmdLen := len }

end Sys2Proof.Machine
end

