-- ==== Sys2Proof/Machine/Ops.lean ====
section
/-! DEFINITION. The operations every rule is written in: counters, taking an error (60_exceptions.md R233, R241), Finish
(41_dispatcher.md R131), Emit (R252), the responses, reset (70 R260), and taking a byte (R107, R185). -/

namespace Sys2Proof.Machine

/-! ## Counters and diagnostics -/

/-- R33: a counter advances by 1 and wraps at 2^CTR_W. -/
def ctrInc (p : Params) (n : Nat) : Nat := (n + 1) % 2 ^ p.ctrW

/-- R232: the number of a diagnostic. -/
def diagCode : Diag → BitVec 8
  | .none => 0
  | .frameChecksum => 1
  | .partialFrame => 2
  | .unknownCommand => 3
  | .invalidDrive => 4
  | .notMounted => 5
  | .lengthExceeded => 6
  | .trackRange => 7
  | .seekFailure => 8
  | .shortStoreRead => 9
  | .shortStoreWrite => 10
  | .payloadChecksum => 11
  | .shortPayload => 12

/-- R21: the encoding of ENG_STATE, in table order. -/
def engStateCode : EngState → BitVec 2
  | .awaitFrame => 0
  | .dispatch => 1
  | .writPayload => 2
  | .writCommit => 3

/-- Taking an error (R233): `raise Diag(c)`. It saves nothing else, changes no control flow and emits nothing (R241). -/
def raiseDiag (c : Diag) (s : State) : State :=
  { s with errCnt := ctrInc s.params s.errCnt, lastErr := diagCode c }

/-- R131: every command but an accepted WRIT ends so; there is no other return from an error (R242). -/
def finish (s : State) : State := { s with fbCnt := 0, engState := .awaitFrame }

/-- R132, R241: a drop records its diagnostic, emits nothing and finishes. -/
def drop (c : Diag) (s : State) : State := finish (raiseDiag c s)

def State.bumpStat (s : State) : State := { s with statCnt := ctrInc s.params s.statCnt }

def State.bumpRead (s : State) : State := { s with readCnt := ctrInc s.params s.readCnt }

def State.bumpWrit (s : State) : State := { s with writCnt := ctrInc s.params s.writCnt }

/-! ## Responses -/

/-- R252: `Emit(s)` appends all of `bytes` to the transmit stream. -/
def emit (bytes : List Byte) (s : State) : State := { s with tx := s.tx ++ bytes }

/-- R154: the STAT response ends the command. -/
def answerStat (map : U16) (s : State) : State := finish (emit (encode (.statResp map)) s)

/-- R188: the WSTA response ends the exchange. -/
def answerWsta (o : WstaCode) (s : State) : State := finish (emit (encode (.wsta o)) s)

/-- R182 to R184: the readiness response; NOT_READY ends the exchange, OK opens the payload phase. -/
def answerReady (r : Readiness) (s : State) : State :=
  match r with
  | .notReady => finish (emit (encode (.writRdy .notReady)) s)
  | .ok => { emit (encode (.writRdy .ok)) s with tbCnt := 0, fbCnt := 0, engState := .writPayload }

/-- R162, R165: the bytes and their checksum go to the front of TB and out, and the command ends. -/
def answerTrack (bytes : List Byte) (s : State) : State :=
  finish (emit (encode (.track bytes)) { s with tb := encode (.track bytes) ++ s.tb.drop (bytes.length + 2) })

/-! ## Taking a byte -/

/-- R107: the frame byte step; with an empty receive stream the engine waits (R108). -/
def takeFrameByte (s : State) : State :=
  match s.rx with
  | [] => s
  | x :: rest =>
    { s with
      rx := rest
      fb := s.fb.setIfInBounds s.fbCnt x
      fbCnt := s.fbCnt + 1
      engState := if s.fbCnt + 1 = 10 then .dispatch else s.engState }

/-- R185, R186: the payload byte step; with an empty receive stream the engine waits. -/
def takePayloadByte (s : State) : State :=
  match s.rx with
  | [] => s
  | x :: rest =>
    { s with
      rx := rest
      tb := s.tb.set s.tbCnt x
      tbCnt := s.tbCnt + 1
      engState := if s.tbCnt + 1 = s.cmdLen.toNat + 2 then .writCommit else s.engState }

/-! ## Reset -/

/-- R260, R261: every field of the block takes its reset value; what other agents hold stays. FB, TB and the latch are
unspecified in R40 (DESIGN CHOICE, log 5). -/
def resetBlock (s : State) : State :=
  { State.powerOn s.params with
    rx := s.rx
    tx := s.tx
    linkOpen := s.linkOpen
    files := s.files
    storePos := s.storePos
    draws := s.draws
    drawCnt := s.drawCnt
    statusOut := s.statusOut
    turns := s.turns }

end Sys2Proof.Machine
end

