-- ==== Sys2Proof/Machine/Memory.lean ====
section
/-! DEFINITION. Tables by number in one canonical form, the memory of a file over them, and reading and writing a file
(20_memory.md R57, R58). -/

namespace Sys2Proof.Machine

/-! ## Tables by number, keys strictly rising -/

def kvGet {α : Type} : List (Nat × α) → Nat → Option α
  | [], _ => none
  | (k, v) :: rest, a => if k = a then some v else kvGet rest a

def kvPut {α : Type} : List (Nat × α) → Nat → α → List (Nat × α)
  | [], a, v => [(a, v)]
  | (k, w) :: rest, a, v =>
    if a < k then (a, v) :: (k, w) :: rest
    else if a = k then (a, v) :: rest
    else (k, w) :: kvPut rest a v

def kvDel {α : Type} : List (Nat × α) → Nat → List (Nat × α)
  | [], _ => []
  | (k, w) :: rest, a => if k = a then rest else (k, w) :: kvDel rest a

def keysRising {α : Type} (l : List (Nat × α)) : Bool := decide ((l.map Prod.fst).Pairwise (· < ·))

/-! ## Memory -/

/-- DESIGN CHOICE (log 8): what an offset below the size that no cell lists reads as. R58 fills a gap with it. -/
def Memory.unlisted : Byte := 0x00

/-- The canonical form: offsets strictly rising, no cell equal to what an unlisted offset reads as. -/
def Memory.wf (m : Memory) : Bool := keysRising m && m.all fun c => c.2 != Memory.unlisted

def Memory.byte (m : Memory) (a : Nat) : Byte := (kvGet m a).getD Memory.unlisted

def Memory.write (m : Memory) (a : Nat) (b : Byte) : Memory :=
  if b = Memory.unlisted then kvDel m a else kvPut m a b

def Memory.writeList (m : Memory) (a : Nat) : List Byte → Memory
  | [] => m
  | b :: rest => Memory.writeList (Memory.write m a b) (a + 1) rest

def Memory.readList (m : Memory) (a : Nat) : Nat → List Byte
  | 0 => []
  | n + 1 => Memory.byte m a :: Memory.readList m (a + 1) n

/-! ## Files -/

/-- A file of `size` bytes of which none is listed (log 7). -/
def File.blank (size : Nat) : File := { size := size, cells := [] }

/-- A file in canonical form lists nothing at or past its end. -/
def File.wf (f : File) : Bool := Memory.wf f.cells && f.cells.all fun c => decide (c.1 < f.size)

/-- The byte at an offset; none at or past the end of the file (R58). -/
def File.byte (f : File) (a : Nat) : Option Byte := if a < f.size then some (Memory.byte f.cells a) else none

/-- R58: `img[pos : min(pos + n, size)]`. -/
def File.read (f : File) (pos n : Nat) : List Byte := Memory.readList f.cells pos (min n (f.size - pos))

/-- R57, R58: `bytes` at `pos`; if that lies past the end, the bytes between hold `gap`, and the unlisted byte after it. -/
def File.write (f : File) (pos : Nat) (gap bytes : List Byte) : File :=
  { size := max f.size (pos + bytes.length)
    cells := Memory.writeList (Memory.writeList f.cells f.size (gap.take (pos - f.size))) pos bytes }

/-- A file extended to `n` bytes, those from its old end on holding `fill`, and the unlisted byte after it. -/
def File.grow (f : File) (n : Nat) (fill : List Byte) : File := f.write n fill []

/-- The model's read of one byte of a store: the byte at offset `a` of the file of handle `h`, none past its end. -/
def State.storeByte (s : State) (h : Handle) (a : Nat) : Option Byte := (kvGet s.files h).bind fun f => f.byte a

end Sys2Proof.Machine
end

