-- ==== Sys2Proof/Machine/Store.lean ====
section
/-! DEFINITION. The drive-store primitives (20_memory.md R57, R58; 60_exceptions.md R253): the reference store exactly, and
a store within R57 by draws. -/

namespace Sys2Proof.Machine

/-- The open store of slot `d`: only a mounted slot's handle ever reaches a primitive (R28). -/
def State.openStore (s : State) (d : Nat) : Option (Handle × File) :=
  if (s.slot d).mounted then
    match (s.slot d).handle with
    | some h => (kvGet s.files h).map fun f => (h, f)
    | none => none
  else none

/-- The store's position for slot `d`. -/
def State.pos (s : State) (d : Nat) : Nat := s.storePos.getD d 0

def State.setPos (d p : Nat) (s : State) : State := { s with storePos := s.storePos.set d p }

def State.setFile (h : Handle) (f : File) (s : State) : State := { s with files := kvPut s.files h f }

/-- The store's next answer: the one the state lists, else a free value (log 9). -/
def State.peekDraw (s : State) : StoreDraw :=
  match s.draws with
  | [] => Config.freeDraw s.drawCnt
  | w :: _ => w

def State.dropDraw (s : State) : State :=
  match s.draws with
  | [] => { s with drawCnt := s.drawCnt + 1 }
  | _ :: rest => { s with draws := rest }

/-- `StoreSeek(d, off) -> ok` (R57): if ok the position is `off`, if not it is whatever the store leaves. The reference
store always succeeds (R58). -/
def storeSeek (d off : Nat) (s : State) : Bool × State :=
  match s.params.store with
  | .reference => (true, s.setPos d off)
  | .oracle => (s.peekDraw.seekOk, s.dropDraw.setPos d (if s.peekDraw.seekOk then off else s.peekDraw.seekPos))

/-- How many bytes a StoreRead of `n` returns at most: `n` in the reference store, a draw otherwise. -/
def State.readCount (n : Nat) (s : State) : Nat :=
  match s.params.store with
  | .reference => n
  | .oracle => min s.peekDraw.count n

/-- The state after the store has given an answer that takes a draw. -/
def State.answered (s : State) : State :=
  match s.params.store with
  | .reference => s
  | .oracle => s.dropDraw

/-- What a StoreRead of `n` returns: the bytes at the position that a seek has set; after a failed seek any bytes, at most
`n` of them (R57, 43_read.md R163, 93 I3; log 11). -/
def State.readBytes (sought : Bool) (f : File) (d n : Nat) (s : State) : List Byte :=
  if sought then f.read (s.pos d) (s.readCount n) else s.peekDraw.data.take n

/-- `StoreRead(d, n) -> bytes` (R57) after a seek that succeeded or failed: the position moves past the bytes. None if the slot
has no open store. -/
def storeRead (sought : Bool) (d n : Nat) (s : State) : Option (List Byte × State) :=
  match s.openStore d with
  | none => none
  | some (_, f) =>
    some (s.readBytes sought f d n, s.answered.setPos d (s.pos d + (s.readBytes sought f d n).length))

/-- How many of `bytes` a StoreWrite takes: all in the reference store, a draw otherwise. -/
def State.writeCount (bytes : List Byte) (s : State) : Nat :=
  match s.params.store with
  | .reference => bytes.length
  | .oracle => min s.peekDraw.count bytes.length

/-- The bytes a store within R57 puts at the position: those it takes, and in the rest of the span any (93 I4, log 12). -/
def State.landed (bytes : List Byte) (s : State) : List Byte :=
  bytes.take (s.writeCount bytes) ++ s.peekDraw.rest.take (bytes.length - s.writeCount bytes)

/-- The file a store within R57 writes into: for a write past the end it may have any greater size and any bytes from its
old end on (93 I5, log 12). -/
def State.extended (f : File) (pos : Nat) (bytes : List Byte) (s : State) : File :=
  if f.size < pos + bytes.length then f.grow s.peekDraw.size s.peekDraw.gap else f

/-- The file after a StoreWrite of `bytes` at `pos` (R57, R58). -/
def State.written (f : File) (pos : Nat) (bytes : List Byte) (s : State) : File :=
  match s.params.store with
  | .reference => f.write pos [] bytes
  | .oracle => if s.landed bytes = [] then s.extended f pos bytes else (s.extended f pos bytes).write pos [] (s.landed bytes)

/-- `StoreWrite(d, bytes) -> k` (R57). None if the slot has no open store. -/
def storeWrite (d : Nat) (bytes : List Byte) (s : State) : Option (Nat × State) :=
  match s.openStore d with
  | none => none
  | some (h, f) =>
    some (s.writeCount bytes,
      (s.answered.setFile h (s.written f (s.pos d) bytes)).setPos d (s.pos d + s.writeCount bytes))

end Sys2Proof.Machine
end

