-- ==== Sys2Proof/Machine/Read.lean ====
section
/-! DEFINITION. The READ family (43_read.md): the request and its response, a track block. -/

namespace Sys2Proof.Machine

/-- R162, R165: the whole block is in TB before any byte goes out; nothing longer than TB is ever sent. -/
def sendTrack (bytes : List Byte) (s : State) : Host.Outcome State Fault Refusal :=
  if bytes.length + 2 ≤ s.tb.length then .next (answerTrack bytes s) else .fault .blockLength

/-- R163: a failed seek is recorded and the read goes on. -/
def readSeek (d off : Nat) (s : State) : State :=
  if (storeSeek d off s).1 then (storeSeek d off s).2 else raiseDiag .seekFailure (storeSeek d off s).2

/-- R162 to R165: the read and its response, once every check has passed and the seek has succeeded or failed. -/
def readTransfer (sought : Bool) (d : Nat) (len : U16) (s : State) : Host.Outcome State Fault Refusal :=
  match storeRead sought d len.toNat s with
  | none => .fault .noStore
  | some (bytes, t) => if bytes.length < len.toNat then .next (drop .shortStoreRead t) else sendTrack bytes t

/-- R160: the seek, the read and its response. -/
def readTrack (d off : Nat) (len : U16) (s : State) : Host.Outcome State Fault Refusal :=
  readTransfer (storeSeek d off s).1 d len (readSeek d off s)

/-- R160. -/
def execRead (drv : BitVec 4) (trk : BitVec 12) (len : U16) (s : State) : Host.Outcome State Fault Refusal :=
  if driveOK s.params drv.toNat then
    match trackCheck drv.toNat trk len (s.bumpRead.select drv.toNat true) with
    | some c => .next (drop c (s.bumpRead.select drv.toNat true))
    | none =>
      readTrack drv.toNat (trackOffset trk len).toNat len
        ((s.bumpRead.select drv.toNat true).setCurTrack drv.toNat (trk.zeroExtend 16))
  else .next (drop .invalidDrive s.bumpRead)

/-- R165: the engine emits a track block and is done. -/
def execTrack (bytes : List Byte) (s : State) : Host.Outcome State Fault Refusal := sendTrack bytes s

end Sys2Proof.Machine
end

