-- ==== Sys2Proof/Machine/Stat.lean ====
section
/-! DEFINITION. The STAT family (42_stat.md): the request and its response. -/

namespace Sys2Proof.Machine

/-- R152, R153: what a STAT does to the drive table. -/
def statUpdate (sel hl : BitVec 8) (trk : U16) (s : State) : State :=
  if driveOK s.params sel.toNat then (s.select sel.toNat (headBit hl)).setCurTrack sel.toNat trk else s

/-- R150: STAT_CNT, the update, then the response with the map read after it. -/
def execStat (sel hl : BitVec 8) (trk : U16) (s : State) : Host.Outcome State Fault Refusal :=
  .next (answerStat (statUpdate sel hl trk s.bumpStat).mountMap (statUpdate sel hl trk s.bumpStat))

/-- R154: the engine emits a STAT response and is done. -/
def execStatResp (map : U16) (s : State) : Host.Outcome State Fault Refusal := .next (answerStat map s)

end Sys2Proof.Machine
end

