-- ==== Sys2Proof/Machine/Writ.lean ====
section
/-! DEFINITION. The WRIT family (44_writ.md): the request, its readiness response, the payload block, which the commit step
runs, and the WSTA response. -/

namespace Sys2Proof.Machine

/-- R180. -/
def execWrit (drv : BitVec 4) (trk : BitVec 12) (len : U16) (s : State) : Host.Outcome State Fault Refusal :=
  if driveOK s.params drv.toNat then
    match trackCheck drv.toNat trk len (s.bumpWrit.select drv.toNat true) with
    | some c => .next (answerReady .notReady (raiseDiag c (s.bumpWrit.select drv.toNat true)))
    | none =>
      .next (answerReady .ok
        (((s.bumpWrit.select drv.toNat true).setCurTrack drv.toNat (trk.zeroExtend 16)).latch drv trk len))
  else .next (drop .invalidDrive s.bumpWrit)

/-- R182 to R184: the engine emits a readiness response; OK opens the payload phase. -/
def execWritRdy (r : Readiness) (s : State) : Host.Outcome State Fault Refusal := .next (answerReady r s)

/-- R189 to R191: the write, once the payload is checked and the seek is done. -/
def commitWrite (payload : List Byte) (s : State) : Host.Outcome State Fault Refusal :=
  match storeWrite s.cmdDrv.toNat payload s with
  | none => .fault .noStore
  | some (k, t) =>
    if k < payload.length then .next (answerWsta .writeError (raiseDiag .shortStoreWrite t))
    else .next (answerWsta .ok t)

/-- R189: the commit step on the block the engine has received. Its payload is CMD_LEN bytes; another length is a state no
rule reaches. -/
def execData (payload : List Byte) (k : U16) (s : State) : Host.Outcome State Fault Refusal :=
  if payload.length = s.cmdLen.toNat then
    if checksum payload = k then
      if (storeSeek s.cmdDrv.toNat (trackOffset s.cmdTrk s.cmdLen).toNat s).1 then
        commitWrite payload (storeSeek s.cmdDrv.toNat (trackOffset s.cmdTrk s.cmdLen).toNat s).2
      else
        .next (answerWsta .writeError
          (raiseDiag .seekFailure (storeSeek s.cmdDrv.toNat (trackOffset s.cmdTrk s.cmdLen).toNat s).2))
    else .next (answerWsta .checksumError (raiseDiag .payloadChecksum s))
  else .fault .blockLength

/-- R188: the engine emits a WSTA response and is done. -/
def execWsta (o : WstaCode) (s : State) : Host.Outcome State Fault Refusal := .next (answerWsta o s)

end Sys2Proof.Machine
end

