-- ==== Sys2Proof/Machine/Dispatch.lean ====
section
/-! DEFINITION. One arm for each row of the opcode table. -/

namespace Sys2Proof.Machine

def exec (i : Instr) (s : State) : Host.Outcome State Fault Refusal :=
  match i with
  | .stat sel hl trk => Sys2Proof.Machine.execStat sel hl trk s
  | .read drv trk len => Sys2Proof.Machine.execRead drv trk len s
  | .writ drv trk len => Sys2Proof.Machine.execWrit drv trk len s
  | .statResp map => Sys2Proof.Machine.execStatResp map s
  | .writRdy r => Sys2Proof.Machine.execWritRdy r s
  | .wsta o => Sys2Proof.Machine.execWsta o s
  | .track bytes => Sys2Proof.Machine.execTrack bytes s
  | .data payload k => Sys2Proof.Machine.execData payload k s

end Sys2Proof.Machine
end

