-- ==== Sys2Proof/Machine/DriveTable.lean ====
section
/-! DEFINITION. The operator's operations on the drive table (45_drive_table.md). -/

namespace Sys2Proof.Machine

/-- R212: both comparisons strict. -/
def tierCount (t : TierTable) (size : Nat) : Nat :=
  if size < t.t1 then t.c1 else if size < t.t2 then t.c2 else t.c3

/-- R213. -/
def tierMaxTrack (t : TierTable) (size : Nat) : U16 := BitVec.ofNat 16 (tierCount t size - 1)

/-- R211: mount an unmounted slot. -/
def mountSlot (t : TierTable) (h : Handle) (size : U64) (x : Slot) : Slot :=
  { x with mounted := true, handle := some h, maxTrack := tierMaxTrack t size.toNat }

/-- R214: unmount a mounted slot; an unmounted slot does not change (92 D12; log 18). -/
def unmountSlot (x : Slot) : Slot := if x.mounted then .empty else x

/-- The store collaborator opens the file of `h`: one the state lists keeps its contents, another has `size` bytes of which
none is listed (log 7). -/
def openFile (h : Handle) (size : U64) (files : List (Handle × File)) : List (Handle × File) :=
  match kvGet files h with
  | some _ => files
  | none => kvPut files h (File.blank size.toNat)

/-- R210: `d >= N_DRIVES` is refused by the port. -/
def OpRequest.accepted (p : Params) : OpRequest → Bool
  | .mount d _ _ => driveOK p d
  | .unmount d => driveOK p d

/-- MOUNT and UNMOUNT as one atomic operation (R211, R214, R215, R218). A MOUNT of a mounted slot unmounts it first. -/
def performRequest (r : OpRequest) (s : State) : State :=
  if r.accepted s.params then
    match r with
    | .mount d h size =>
      { s with
        dt := s.dt.modify d fun x => mountSlot s.params.tiers h size (unmountSlot x)
        files := openFile h size s.files
        storePos := s.storePos.set d 0 }
    | .unmount d => { s with dt := s.dt.modify d unmountSlot }
  else s

end Sys2Proof.Machine
end

