-- ==== Sys2Proof/Machine/Events.lean ====
section
/-! DEFINITION. The steps of the other agents (60_exceptions.md R238, R245): transport, timer, operator, platform. An event
where it has no effect does nothing and is not remembered (41_dispatcher.md R134). -/

namespace Sys2Proof.Machine

/-- R251: the client's byte goes to the back of the receive FIFO. While the link is closed no byte arrives (R255). -/
def byteArrives (b : Byte) (s : State) : State := if s.linkOpen then { s with rx := s.rx ++ [b] } else s

/-- R109, R110: the partial-frame discard. -/
def frameDeadline (s : State) : State :=
  if s.engState = .awaitFrame ∧ 1 ≤ s.fbCnt ∧ s.fbCnt ≤ 9 then { raiseDiag .partialFrame s with fbCnt := 0 } else s

/-- R187: a short payload ends the exchange with WSTA CHECKSUM_ERROR. -/
def payloadTimeout (s : State) : State :=
  if s.engState = .writPayload then answerWsta .checksumError (raiseDiag .shortPayload s) else s

/-- R216: an operator request is performed at once in AWAIT_FRAME and held in OP_PEND otherwise; while one is held no other
is accepted (R35), and one for no drive is refused by the port (R210). -/
def operatorRequest (r : OpRequest) (s : State) : State :=
  if s.opPend.isSome then s
  else if s.engState = .awaitFrame then performRequest r s
  else if r.accepted s.params then { s with opPend := some r }
  else s

/-- R216: the held request is performed at a boundary with AWAIT_FRAME. -/
def performHeld (s : State) : State :=
  match s.opPend with
  | some r => if s.engState = .awaitFrame then performRequest r { s with opPend := none } else s
  | none => s

/-- R38: the fields the operator port reads. -/
def State.status (s : State) : Status :=
  { engState := s.engState, dt := s.dt, statCnt := s.statCnt, readCnt := s.readCnt, writCnt := s.writCnt
    errCnt := s.errCnt, lastErr := s.lastErr }

/-- R38: STATUS is an atomic snapshot without side effect; the operator keeps it (log 17). -/
def readStatus (s : State) : State := { s with statusOut := some s.status }

/-- R255, 70 R263. -/
def linkUp (s : State) : State := { s with linkOpen := true }

/-- 70 R265: when LINK_OPEN falls the engine abandons the command in progress. -/
def linkDown (s : State) : State :=
  if s.linkOpen then { s with linkOpen := false, fbCnt := 0, tbCnt := 0, engState := .awaitFrame } else s

end Sys2Proof.Machine
end

