-- ==== Sys2Proof/Machine/Engine.lean ====
section
/-! DEFINITION. The engine's turn in each of its states (41_dispatcher.md R120), the states no rule reaches (93), and which
agent's step comes next (60_exceptions.md R240). -/

namespace Sys2Proof.Machine

/-! ## States no rule reaches -/

/-- R120, R122, R180: the counts FB_CNT takes in each engine state. -/
def frameCountOK (s : State) : Bool :=
  match s.engState with
  | .awaitFrame => decide (s.fbCnt ≤ 9)
  | .dispatch => decide (s.fbCnt = 10)
  | .writPayload => decide (s.fbCnt = 0)
  | .writCommit => decide (s.fbCnt = 0)

/-- R25, R185, R186: the counts TB_CNT takes in each engine state. -/
def payloadCountOK (s : State) : Bool :=
  match s.engState with
  | .awaitFrame => decide (s.tbCnt ≤ s.params.maxTrackLen + 2)
  | .dispatch => decide (s.tbCnt ≤ s.params.maxTrackLen + 2)
  | .writPayload => decide (s.tbCnt < s.cmdLen.toNat + 2)
  | .writCommit => decide (s.tbCnt = s.cmdLen.toNat + 2)

/-- R181, R184: what a readiness of OK lets into the latch. -/
def latchOK (s : State) : Bool :=
  match s.engState with
  | .awaitFrame => true
  | .dispatch => true
  | .writPayload => driveOK s.params s.cmdDrv.toNat && decide (s.cmdLen.toNat ≤ s.params.maxTrackLen)
  | .writCommit => driveOK s.params s.cmdDrv.toNat && decide (s.cmdLen.toNat ≤ s.params.maxTrackLen)

/-- R255: while the link is closed the engine waits with an empty frame. -/
def linkOK (s : State) : Bool := s.linkOpen || (decide (s.engState = .awaitFrame) && decide (s.fbCnt = 0))

/-- The first way, if any, in which a state is none the rules reach (93). Which states those are is a DESIGN CHOICE (log 13),
the instances outside R5's legal values among them: R5 gives them no meaning. -/
def State.shapeFault (s : State) : Option Fault :=
  if !s.params.wf then some .parameters
  else if s.dt.length ≠ s.params.nDrives then some .tableSize
  else if s.tb.length ≠ s.params.maxTrackLen + 2 then some .bufferSize
  else if !frameCountOK s then some .frameCount
  else if !payloadCountOK s then some .payloadCount
  else if !latchOK s then some .latchRange
  else if !linkOK s then some .linkState
  else none

/-! ## The engine -/

/-- R122: validate, decode, dispatch. A frame that is not well-checked or whose tag is no command is dropped. -/
def dispatchStep (s : State) : Host.Outcome State Fault Refusal :=
  match decode .rxFrame s.fb.toList with
  | .ok i => exec i s
  | .error .frameChecksum => .next (drop .frameChecksum s)
  | .error .unknownCommand => .next (drop .unknownCommand s)
  | .error .badLength => .fault .frameCount
  | .error .notAResponse => .fault .frameCount
  | .error .blockChecksum => .fault .frameCount

/-- R189: the received block is run as a DATA. -/
def commitStep (s : State) : Host.Outcome State Fault Refusal :=
  match decode (.rxBlock s.cmdLen) (s.tb.take (s.cmdLen.toNat + 2)) with
  | .ok i => exec i s
  | .error _ => .fault .blockLength

/-- R120: the engine's one step in each state. It waits for bytes in AWAIT_FRAME and WRIT_PAYLOAD only, and takes no step
while the link is closed (70 R265). -/
def engineTurn (s : State) : Host.Outcome State Fault Refusal :=
  if s.linkOpen then
    match s.engState with
    | .awaitFrame => .next (takeFrameByte s)
    | .dispatch => dispatchStep s
    | .writPayload => .next (takePayloadByte s)
    | .writCommit => commitStep s
  else .next s

/-! ## Whose step it is -/

/-- R216: a held request is due at the first boundary with AWAIT_FRAME. -/
def State.heldDue (s : State) : Bool := s.opPend.isSome && decide (s.engState = .awaitFrame)

/-- The next step and the state without its entry in the list: the head of `turns`, the engine if the list is empty, but a
held request that is due comes first, and reset and transport close override everything (R240; log 2, log 14). -/
def takeTurn (s : State) : Event × State :=
  match s.turns with
  | .reset :: rest => (.reset, { s with turns := rest })
  | .linkDown :: rest => (.linkDown, { s with turns := rest })
  | [] => if s.heldDue then (.performHeld, s) else (.engine, s)
  | e :: rest => if s.heldDue then (.performHeld, s) else (e, { s with turns := rest })

/-- The step of one agent in a state of the rules' shape. -/
def runEvent (e : Event) (s : State) : Host.Outcome State Fault Refusal :=
  match e with
  | .engine => engineTurn s
  | .byte b => .next (byteArrives b s)
  | .frameDeadline => .next (frameDeadline s)
  | .payloadTimeout => .next (payloadTimeout s)
  | .request r => .next (operatorRequest r s)
  | .performHeld => .next (performHeld s)
  | .status => .next (readStatus s)
  | .linkUp => .next (linkUp s)
  | .linkDown => .next (linkDown s)
  | .reset => .next (resetBlock s)

/-- Reset acts in any state (70 R260); any other step in a state no rule reaches is a fault (93, log 13). -/
def runTurn (e : Event) (s : State) : Host.Outcome State Fault Refusal :=
  if e = .reset then .next (resetBlock s)
  else
    match s.shapeFault with
    | some f => .fault f
    | none => runEvent e s

/-- The state with a received frame complete in FB and the engine about to dispatch it (R107, R122; log 4). -/
def State.withFrame (bytes : List Byte) (s : State) : State :=
  { s with
    engState := .dispatch
    fbCnt := 10
    fb := Vector.ofFn fun i => bytes.getD i.val 0
    linkOpen := true
    turns := .engine :: s.turns }

end Sys2Proof.Machine
end

