-- ==== Sys2Proof/Machine/Step.lean ====
section
/-! DEFINITION. One step of the machine: the next step of whichever agent comes next. -/

namespace Sys2Proof.Machine

def step (s : State) : Host.Outcome State Fault Refusal := runTurn (takeTurn s).1 (takeTurn s).2

/-- The frame of a table word received and about to be dispatched (log 4). -/
def State.withFetchWord (s : State) (nbits w : Nat) : State := s.withFrame (tableBytes nbits w)

end Sys2Proof.Machine
end

