-- ==== Sys2Proof/Safety.lean ====
section
/-! DEFINITION. What a safe state of the machine is, in the terms the claims use. -/

namespace Sys2Proof.Machine

/-- The values R213 gives `maxTrack` of a mounted slot (10_state.md R39). -/
def tierValues (t : TierTable) : List U16 :=
  [BitVec.ofNat 16 (t.c1 - 1), BitVec.ofNat 16 (t.c2 - 1), BitVec.ofNat 16 (t.c3 - 1)]

/-- A slot of the drive table in a state of the rules: unmounted, it has no handle and `maxTrack = 0` (R39, R214); mounted,
its handle opens a store and `maxTrack` is one of the tier values (R28, R39). -/
def SlotOK (s : State) (d : Nat) : Prop :=
  if (s.slot d).mounted then (s.openStore d).isSome = true ∧ (s.slot d).maxTrack ∈ tierValues s.params.tiers
  else (s.slot d).handle = none ∧ (s.slot d).maxTrack = 0

/-- A WRIT exchange is open (R130). -/
def State.writOpen (s : State) : Bool := decide (s.engState = .writPayload) || decide (s.engState = .writCommit)

/-- The invariant of the machine: the legal values of R5 and R39, the selection invariant R32, and what the rules keep. -/
structure Inv (s : State) : Prop where
  /-- R5. -/
  params : s.params.wf = true
  /-- The counts, buffers, latch and link are as ENG_STATE allows (R22, R25, R120, R255). -/
  shape : s.shapeFault = none
  /-- R33: every counter is CTR_W bits. -/
  counters : s.statCnt < 2 ^ s.params.ctrW ∧ s.readCnt < 2 ^ s.params.ctrW ∧ s.writCnt < 2 ^ s.params.ctrW ∧
    s.errCnt < 2 ^ s.params.ctrW
  /-- R232: codes 13 to 255 are never written. -/
  lastErr : s.lastErr.toNat ≤ 12
  /-- R32: at most one drive is enabled. -/
  oneEnabled : ∀ i < s.params.nDrives, ∀ j < s.params.nDrives,
    (s.slot i).enabled = true → (s.slot j).enabled = true → i = j
  /-- R32: headLoaded implies enabled. -/
  headEnabled : ∀ i < s.params.nDrives, (s.slot i).headLoaded = true → (s.slot i).enabled = true
  /-- R28, R39. -/
  slots : ∀ d < s.params.nDrives, SlotOK s d
  /-- R181, R216, 70 R277: the drive of an open WRIT stays mounted, its track in range. -/
  latched : s.writOpen = true →
    (s.slot s.cmdDrv.toNat).mounted = true ∧ s.cmdTrk.zeroExtend 16 ≤ (s.slot s.cmdDrv.toNat).maxTrack
  /-- R35, R210: a held request is one the port accepts. -/
  held : s.opPend.all (fun r => r.accepted s.params) = true
  /-- Handles strictly rising. -/
  handles : keysRising s.files = true
  /-- Every file is in its canonical form. -/
  canonical : s.files.all (fun c => c.2.wf) = true
  /-- One position for each slot (R57). -/
  positions : s.storePos.length = s.params.nDrives

/-- 70 R278: the block is quiescent. -/
def Quiescent (s : State) : Prop :=
  s.engState = .awaitFrame ∧ s.fbCnt = 0 ∧ s.rx = [] ∧ s.opPend = none

/-- What no row of the opcode table writes: the instance, the receive stream, the link, the held request, the operator's
snapshot and the order of the steps. -/
structure OutsideKept (s t : State) : Prop where
  params : t.params = s.params
  rx : t.rx = s.rx
  linkOpen : t.linkOpen = s.linkOpen
  opPend : t.opPend = s.opPend
  statusOut : t.statusOut = s.statusOut
  turns : t.turns = s.turns
  fb : t.fb = s.fb

/-- Every byte of every store reads as before, its end included. -/
def StoresKept (s t : State) : Prop := ∀ h a, t.storeByte h a = s.storeByte h a

end Sys2Proof.Machine
end

