-- ==== Sys2Proof/Certificates/Slice0/Obligations.lean ====
section
/-! DEFINITION. The statements about the machine. A docstring names the rules of spec/ a statement formalises; where a rule is
marked as the spec's own decision (92 D<n>) or derivation, or a clause is the model's choice (log n), it says so. Throughout,
the counters count as decision D9 has it and LAST_ERR holds the codes of decision D10. -/

namespace Sys2Proof.Claims

open Sys2Proof Sys2Proof.Machine

/-! ## The bytes of the responses, written out from R78, R82, R84 -/

def statResponse (map : U16) : List Byte :=
  [0x53, 0x54, 0x41, 0x54, 0x00, 0x00] ++ le16 map ++
    le16 (0x013C + (map.extractLsb' 0 8).zeroExtend 16 + (map.extractLsb' 8 8).zeroExtend 16)

def readinessOK : List Byte := [0x57, 0x52, 0x49, 0x54, 0x00, 0x00, 0x00, 0x00, 0x46, 0x01]

def readinessNotReady : List Byte := [0x57, 0x52, 0x49, 0x54, 0x01, 0x00, 0x00, 0x00, 0x47, 0x01]

def wstaOK : List Byte := [0x57, 0x53, 0x54, 0x41, 0x00, 0x00, 0x00, 0x00, 0x3F, 0x01]

def wstaChecksumError : List Byte := [0x57, 0x53, 0x54, 0x41, 0x02, 0x00, 0x00, 0x00, 0x41, 0x01]

def wstaWriteError : List Byte := [0x57, 0x53, 0x54, 0x41, 0x03, 0x00, 0x00, 0x00, 0x42, 0x01]

/-! ## Words used by several statements -/

/-- A counter's next value (R125, R233). -/
def inc (s : State) (n : Nat) : Nat := (n + 1) % 2 ^ s.params.ctrW

/-- `dt'` is `dt` after the selection update of R127 for drive `k` with head bit `h`, and then the change `upd` of slot `k`. -/
def Selected (dt : List Slot) (k : Nat) (h : Bool) (upd : Slot → Slot) (dt' : List Slot) : Prop :=
  dt'.length = dt.length ∧
    ∀ j < dt.length, dt'.getD j .empty =
      if j = k then upd { dt.getD j .empty with enabled := true, headLoaded := h }
      else { dt.getD j .empty with enabled := false, headLoaded := false }

/-- The change a command that is carried out makes to its slot (R30). -/
def withTrack (t : U16) (x : Slot) : Slot := { x with curTrack := t }

/-- READ and WRIT: a check of R161 fails. -/
def CheckFails (s : State) (drv : BitVec 4) (trk : BitVec 12) (len : U16) : Prop :=
  (s.slot drv.toNat).mounted = false ∨ s.params.maxTrackLen < len.toNat ∨
    (s.slot drv.toNat).maxTrack.toNat < trk.toNat

/-- The code of the first failing check (R161, R232). -/
def checkCode (s : State) (drv : BitVec 4) (len : U16) : BitVec 8 :=
  if (s.slot drv.toNat).mounted = false then 5 else if s.params.maxTrackLen < len.toNat then 6 else 7

/-- The byte offset of R54. -/
def offsetOf (trk : BitVec 12) (len : U16) : Nat := trk.toNat * len.toNat

/-- The next step is the engine's, in a state of the rules; `u` is the state without the entry of the list of turns that says
so. An empty list says so too (log 2). -/
def EngineTurn (s u : State) : Prop :=
  ((s.turns = [] ∧ u = s) ∨ ∃ rest, s.turns = .engine :: rest ∧ u = { s with turns := rest }) ∧
    ¬(s.opPend.isSome = true ∧ s.engState = .awaitFrame) ∧ s.shapeFault = none

/-- The same with the link open. -/
def EngineNext (s u : State) : Prop := EngineTurn s u ∧ s.linkOpen = true

/-- The next step is the event `e`, in a state of the rules; `u` is the state without its entry. -/
def EventNext (e : Event) (s u : State) : Prop :=
  (∃ rest, s.turns = e :: rest ∧ u = { s with turns := rest }) ∧
    ¬(s.opPend.isSome = true ∧ s.engState = .awaitFrame) ∧ s.shapeFault = none

/-- The state with other store contents. -/
def withFiles (s : State) (files : List (Handle × File)) : State := { s with files := files }

/-- The response rows of the opcode table. -/
def isResponse : Instr → Prop
  | .statResp _ => True
  | .writRdy _ => True
  | .wsta _ => True
  | .track _ => True
  | .stat _ _ _ => False
  | .read _ _ _ => False
  | .writ _ _ _ => False
  | .data _ _ => False

/-- The drive a command addresses (R77, R80). -/
def addressed : Instr → Option Nat
  | .stat sel _ _ => some sel.toNat
  | .read drv _ _ => some drv.toNat
  | .writ drv _ _ => some drv.toNat
  | .statResp _ => none
  | .writRdy _ => none
  | .wsta _ => none
  | .track _ => none
  | .data _ _ => none

/-- The head bit a command gives its drive (R128). -/
def headOf : Instr → Bool
  | .stat _ hl _ => decide (hl ≠ 0)
  | .read _ _ _ => true
  | .writ _ _ _ => true
  | .statResp _ => false
  | .writRdy _ => false
  | .wsta _ => false
  | .track _ => false
  | .data _ _ => false

/-- Two states that differ at most in what no rule that produces wire output reads: the counters, LAST_ERR, the operator's
snapshot, and each slot's curTrack, enabled and headLoaded (R30, R31, R33). -/
structure SameButDiagnostics (s t : State) : Prop where
  core : { t with statCnt := s.statCnt, readCnt := s.readCnt, writCnt := s.writCnt, errCnt := s.errCnt,
                  lastErr := s.lastErr, statusOut := s.statusOut, dt := s.dt } = s
  slots : t.dt.length = s.dt.length ∧ ∀ j, (t.slot j).mounted = (s.slot j).mounted ∧
    (t.slot j).handle = (s.slot j).handle ∧ (t.slot j).maxTrack = (s.slot j).maxTrack

end Sys2Proof.Claims

open Sys2Proof Sys2Proof.Machine Sys2Proof.Claims

/-! ## Checksum and codec -/

/-- R100: the checksum is the sum of the bytes modulo 2^16, 0 for no bytes; over 8 bytes it is at most 2040 and never wraps. -/
def Obligations.ChecksumIsByteSum : Prop :=
  checksum [] = 0 ∧ ∀ s : List Byte,
    (checksum s).toNat = (s.map BitVec.toNat).sum % 65536 ∧
    (s.length ≤ 8 → (checksum s).toNat = (s.map BitVec.toNat).sum ∧ (s.map BitVec.toNat).sum ≤ 2040)

/-- 40_checksum_codec.md, the laws of the checksum: concatenation (the source's property), and, derived there, permutation,
a change to any one byte, and two changes that cancel. -/
def Obligations.ChecksumLaws : Prop :=
  (∀ a b : List Byte, checksum (a ++ b) = checksum a + checksum b) ∧
  (∀ a b : List Byte, a.Perm b → checksum a = checksum b) ∧
  (∀ (a : List Byte) (i : Nat) (x : Byte), i < a.length → x ≠ a.getD i 0 → checksum (a.set i x) ≠ checksum a) ∧
  (∀ (p q r : List Byte) (x y x' y' : Byte), x.toNat + y.toNat = x'.toNat + y'.toNat →
    checksum (p ++ x :: q ++ y :: r) = checksum (p ++ x' :: q ++ y' :: r))

/-- R104: the codec's round trip, both ways. -/
def Obligations.FrameCodecRoundTrip : Prop :=
  (∀ b : List Byte, b.length = 10 → encodeFrame (decodeFrame b) = b) ∧
  (∀ f : Frame, f.tag.length = 4 → decodeFrame (encodeFrame f) = f)

/-- R114: a frame made from a tag and two parameters is 10 bytes, well-checked, and carries them. -/
def Obligations.MadeFramesAreWellChecked : Prop :=
  ∀ (tag : List Byte) (p1 p2 : U16), tag.length = 4 →
    (makeFrame tag p1 p2).length = 10 ∧ wellChecked (makeFrame tag p1 p2) = true ∧
    decodeFrame (makeFrame tag p1 p2) =
      { tag := tag, param1 := p1, param2 := p2, checksum := checksum (tag ++ le16 p1 ++ le16 p2) }

/-- 30_encoding.md: in its own context every well-formed instruction of an instance decodes to itself, every operand at every
value. -/
def Obligations.DecodeEncodeEveryInstruction : Prop :=
  ∀ (p : Params) (i : Instr), p.wf = true → i.wf p = true → decode i.ctx (encode i) = .ok i

/-- 30_encoding.md R76, R85; 41_dispatcher.md R123: what the decoder of received frames accepts is exactly the encoding of
the command it answers, so two frames never stand for one command and no response row is ever received. -/
def Obligations.ReceivedFramesHaveOneReading : Prop :=
  ∀ (bs : List Byte) (i : Instr), decode .rxFrame bs = .ok i → encode i = bs ∧ (addressed i).isSome = true

/-- R123: the reading of ten received bytes is decided by the checksum and then by exact tag match; there is no case folding,
no trimming and no prefix match. -/
def Obligations.ReceivedFrameReading : Prop :=
  ∀ bs : List Byte, bs.length = 10 →
    (checksum (bs.take 8) ≠ rd16 bs 8 → decode .rxFrame bs = .error .frameChecksum) ∧
    (checksum (bs.take 8) = rd16 bs 8 →
      (bs.take 4 = [0x53, 0x54, 0x41, 0x54] → ∃ sel hl trk, decode .rxFrame bs = .ok (.stat sel hl trk)) ∧
      (bs.take 4 = [0x52, 0x45, 0x41, 0x44] → ∃ drv trk len, decode .rxFrame bs = .ok (.read drv trk len)) ∧
      (bs.take 4 = [0x57, 0x52, 0x49, 0x54] → ∃ drv trk len, decode .rxFrame bs = .ok (.writ drv trk len)) ∧
      (bs.take 4 ≠ [0x53, 0x54, 0x41, 0x54] → bs.take 4 ≠ [0x52, 0x45, 0x41, 0x44] →
        bs.take 4 ≠ [0x57, 0x52, 0x49, 0x54] → decode .rxFrame bs = .error .unknownCommand))

/-- 95 V3.4, V4.16, V5.15, V2.4: words of the spec and the instructions they stand for. -/
def Obligations.OpcodeWordsOfTheSpec : Prop :=
  decode .rxFrame [0x53, 0x54, 0x41, 0x54, 0x02, 0x00, 0x34, 0x12, 0x84, 0x01] = .ok (.stat 2 0 0x1234) ∧
  decode .rxFrame [0x52, 0x45, 0x41, 0x44, 0xFE, 0x37, 0x10, 0x00, 0x61, 0x02] = .ok (.read 3 2046 16) ∧
  decode .rxFrame [0x57, 0x52, 0x49, 0x54, 0x05, 0x20, 0x10, 0x00, 0x7B, 0x01] = .ok (.writ 2 5 16) ∧
  decode .txFrame [0x57, 0x53, 0x54, 0x41, 0x03, 0x00, 0x00, 0x00, 0x42, 0x01] = .ok (.wsta .writeError)

/-- 20_memory.md R55 (derived there): the 32-bit offset product never overflows and is below 2^28. -/
def Obligations.OffsetNeverOverflows : Prop :=
  ∀ (trk : BitVec 12) (len : U16),
    (trackOffset trk len).toNat = offsetOf trk len ∧ (trackOffset trk len).toNat < 2 ^ 28

/-! ## A step runs what was received -/

/-- R122, R189: a step in DISPATCH runs the command of the frame in FB, a step in WRIT_COMMIT the DATA block in TB, on the
state without the entry of the list of turns. -/
def Obligations.StepRunsTheDecodedInstruction : Prop :=
  (∀ (s u : State) (i : Instr), EngineNext s u → s.engState = .dispatch → decode .rxFrame s.fb.toList = .ok i →
    step s = exec i u) ∧
  (∀ (s u : State) (i : Instr), EngineNext s u → s.engState = .writCommit →
    decode (.rxBlock s.cmdLen) (s.tb.take (s.cmdLen.toNat + 2)) = .ok i → step s = exec i u)

/-- R112, R124: a received frame that is not well-checked raises FRAME_CHECKSUM, one whose tag is no command raises
UNKNOWN_COMMAND (codes 1 and 3: decision D10); both are dropped, and nothing else changes. -/
def Obligations.RejectedFramesAreDropped : Prop :=
  ∀ s u : State, EngineNext s u → s.engState = .dispatch →
    (checksum (s.fb.toList.take 8) ≠ rd16 s.fb.toList 8 →
      step s = .next { u with errCnt := inc s s.errCnt, lastErr := 1, fbCnt := 0, engState := .awaitFrame }) ∧
    (checksum (s.fb.toList.take 8) = rd16 s.fb.toList 8 → s.fb.toList.take 4 ≠ [0x53, 0x54, 0x41, 0x54] →
      s.fb.toList.take 4 ≠ [0x52, 0x45, 0x41, 0x44] → s.fb.toList.take 4 ≠ [0x57, 0x52, 0x49, 0x54] →
      step s = .next { u with errCnt := inc s s.errCnt, lastErr := 3, fbCnt := 0, engState := .awaitFrame })

/-- R107 (one byte a step: decision D21), R108: the frame byte step, and waiting with an empty receive stream. -/
def Obligations.FrameByteStep : Prop :=
  ∀ s u : State, EngineNext s u → s.engState = .awaitFrame →
    (s.rx = [] → step s = .next u) ∧
    (∀ x rest, s.rx = x :: rest →
      ∃ fb', fb'.toList = s.fb.toList.take s.fbCnt ++ x :: s.fb.toList.drop (s.fbCnt + 1) ∧
        step s = .next { u with
          rx := rest, fb := fb', fbCnt := s.fbCnt + 1
          engState := if s.fbCnt = 9 then .dispatch else .awaitFrame })

/-- R185: the payload byte step; the last byte of CMD_LEN + 2 leads to WRIT_COMMIT; nothing reaches FB. -/
def Obligations.PayloadByteStep : Prop :=
  ∀ s u : State, EngineNext s u → s.engState = .writPayload →
    (s.rx = [] → step s = .next u) ∧
    (∀ x rest, s.rx = x :: rest →
      step s = .next { u with
        rx := rest, tb := s.tb.take s.tbCnt ++ x :: s.tb.drop (s.tbCnt + 1), tbCnt := s.tbCnt + 1
        engState := if s.tbCnt = s.cmdLen.toNat + 1 then .writCommit else .writPayload })

/-! ## STAT -/

/-- R150, R152, R154: a STAT with a valid index selects its drive, with its head bit, and sets its curTrack, mounted or not,
and then answers one STAT response of code 0x0000 whose map bit i is `mounted` of drive i, 0 from N_DRIVES up. -/
def Obligations.StatUpdatesAndAnswers : Prop :=
  ∀ (s : State) (sel hl : BitVec 8) (trk : U16), s.dt.length = s.params.nDrives → sel.toNat < s.params.nDrives →
    ∃ dt' map, Selected s.dt sel.toNat (decide (hl ≠ 0)) (withTrack trk) dt' ∧
      (∀ i < 16, map.getLsbD i = (decide (i < s.params.nDrives) && (dt'.getD i .empty).mounted)) ∧
      exec (.stat sel hl trk) s = .next { s with
        statCnt := inc s s.statCnt, dt := dt', tx := s.tx ++ statResponse map, fbCnt := 0, engState := .awaitFrame }

/-- R153 (decision D6): a STAT with any other index leaves the drive table, the old selection included, and is answered all the
same. -/
def Obligations.StatOfNoDriveAnswersAllTheSame : Prop :=
  ∀ (s : State) (sel hl : BitVec 8) (trk : U16), s.params.nDrives ≤ sel.toNat →
    ∃ map, (∀ i < 16, map.getLsbD i = (decide (i < s.params.nDrives) && (s.slot i).mounted)) ∧
      exec (.stat sel hl trk) s = .next { s with
        statCnt := inc s s.statCnt, tx := s.tx ++ statResponse map, fbCnt := 0, engState := .awaitFrame }

/-- R127: every STAT, READ or WRIT that addresses a drive of the table, answered or dropped, leaves that drive enabled with
its head bit and every other drive disabled, and writes no slot's mounted, handle or maxTrack. -/
def Obligations.AddressedDriveIsTheOnlySelected : Prop :=
  ∀ (s t : State) (i : Instr) (k : Nat), s.dt.length = s.params.nDrives → addressed i = some k →
    k < s.params.nDrives → exec i s = .next t →
    (t.slot k).enabled = true ∧ (t.slot k).headLoaded = headOf i ∧
    (∀ j, j ≠ k → (t.slot j).enabled = false ∧ (t.slot j).headLoaded = false) ∧
    (∀ j, (t.slot j).mounted = (s.slot j).mounted ∧ (t.slot j).handle = (s.slot j).handle ∧
      (t.slot j).maxTrack = (s.slot j).maxTrack)

/-! ## READ -/

/-- R126: a READ or WRIT whose index is N_DRIVES or more is dropped with INVALID_DRIVE: only its counter, ERR_CNT and
LAST_ERR move, and nothing is emitted. -/
def Obligations.InvalidDriveIsDropped : Prop :=
  ∀ (s : State) (drv : BitVec 4) (trk : BitVec 12) (len : U16), s.params.nDrives ≤ drv.toNat →
    exec (.read drv trk len) s = .next { s with
      readCnt := inc s s.readCnt, errCnt := inc s s.errCnt, lastErr := 4, fbCnt := 0, engState := .awaitFrame } ∧
    exec (.writ drv trk len) s = .next { s with
      writCnt := inc s s.writCnt, errCnt := inc s s.errCnt, lastErr := 4, fbCnt := 0, engState := .awaitFrame }

/-- R161: a READ of a valid index whose drive is unmounted, whose length is too long or whose track is past maxTrack (the
track inclusive) is dropped with the diagnostic of the first of these that fails; its drive is selected; nothing is emitted. -/
def Obligations.ReadFailedCheckIsDropped : Prop :=
  ∀ (s : State) (drv : BitVec 4) (trk : BitVec 12) (len : U16), s.dt.length = s.params.nDrives →
    drv.toNat < s.params.nDrives → CheckFails s drv trk len →
    ∃ dt', Selected s.dt drv.toNat true id dt' ∧
      exec (.read drv trk len) s = .next { s with
        readCnt := inc s s.readCnt, dt := dt', errCnt := inc s s.errCnt, lastErr := checkCode s drv len
        fbCnt := 0, engState := .awaitFrame }

/-- R165, R162 under the reference store (R58, decision D19): a READ whose checks pass, of a track inside the file, emits the
track's bytes at trk * len and then their checksum, little-endian, leaves the block in TB, sets curTrack, and changes no store
byte. -/
def Obligations.ReadSendsTheTrack : Prop :=
  ∀ (s : State) (drv : BitVec 4) (trk : BitVec 12) (len : U16) (h : Handle) (f : File), Inv s →
    s.params.store = .reference → drv.toNat < s.params.nDrives → ¬CheckFails s drv trk len →
    s.openStore drv.toNat = some (h, f) → offsetOf trk len + len.toNat ≤ f.size →
    ∃ dt' bytes, Selected s.dt drv.toNat true (withTrack (trk.zeroExtend 16)) dt' ∧ bytes.length = len.toNat ∧
      (∀ i < len.toNat, s.storeByte h (offsetOf trk len + i) = some (bytes.getD i 0)) ∧
      exec (.read drv trk len) s = .next { s with
        readCnt := inc s s.readCnt, dt := dt'
        storePos := s.storePos.set drv.toNat (offsetOf trk len + len.toNat)
        tb := bytes ++ le16 (checksum bytes) ++ s.tb.drop (len.toNat + 2)
        tx := s.tx ++ bytes ++ le16 (checksum bytes), fbCnt := 0, engState := .awaitFrame }

/-- R164 under the reference store (decision D19): a READ whose checks pass, of a track past the end of the file, is dropped
with SHORT_STORE_READ and emits nothing; curTrack is set all the same. -/
def Obligations.ReadPastTheEndIsDropped : Prop :=
  ∀ (s : State) (drv : BitVec 4) (trk : BitVec 12) (len : U16) (h : Handle) (f : File), Inv s →
    s.params.store = .reference → drv.toNat < s.params.nDrives → ¬CheckFails s drv trk len →
    s.openStore drv.toNat = some (h, f) → f.size < offsetOf trk len + len.toNat →
    ∃ dt', Selected s.dt drv.toNat true (withTrack (trk.zeroExtend 16)) dt' ∧
      exec (.read drv trk len) s = .next { s with
        readCnt := inc s s.readCnt, dt := dt'
        storePos := s.storePos.set drv.toNat (max (offsetOf trk len) f.size)
        errCnt := inc s s.errCnt, lastErr := 9, fbCnt := 0, engState := .awaitFrame }

/-- R57, R163, R237 (decisions D18, D19): in a store within R57 a READ whose checks pass runs whatever the store answers.
After a seek that succeeds it reads the file's bytes at trk * len, as many as the store gives. A failed seek is recorded and the
read goes on: what it returns is any bytes, at most len of them (93 I3, log 11). A short read is recorded and dropped, so a
failed seek and a short read count twice; a full read is sent. -/
def Obligations.ReadTakesAnyStoreAnswer : Prop :=
  ∀ (s : State) (drv : BitVec 4) (trk : BitVec 12) (len : U16) (h : Handle) (f : File) (p errs : Nat), Inv s →
    s.params.store = .oracle → drv.toNat < s.params.nDrives → ¬CheckFails s drv trk len →
    s.openStore drv.toNat = some (h, f) →
    p = (if s.peekDraw.seekOk = true then offsetOf trk len else s.peekDraw.seekPos) →
    errs = (if s.peekDraw.seekOk = true then s.errCnt else inc s s.errCnt) →
    ∃ dt' bytes, Selected s.dt drv.toNat true (withTrack (trk.zeroExtend 16)) dt' ∧
      (s.peekDraw.seekOk = true → bytes.length = min (min s.dropDraw.peekDraw.count len.toNat) (f.size - p) ∧
        ∀ i < bytes.length, s.storeByte h (p + i) = some (bytes.getD i 0)) ∧
      (s.peekDraw.seekOk = false → bytes = s.dropDraw.peekDraw.data.take len.toNat) ∧
      exec (.read drv trk len) s =
        if bytes.length < len.toNat then .next { s.dropDraw.dropDraw with
          readCnt := inc s s.readCnt, dt := dt', storePos := s.storePos.set drv.toNat (p + bytes.length)
          errCnt := inc s errs, lastErr := 9, fbCnt := 0, engState := .awaitFrame }
        else .next { s.dropDraw.dropDraw with
          readCnt := inc s s.readCnt, dt := dt', storePos := s.storePos.set drv.toNat (p + bytes.length)
          errCnt := errs, lastErr := if s.peekDraw.seekOk = true then s.lastErr else 8
          tb := bytes ++ le16 (checksum bytes) ++ s.tb.drop (len.toNat + 2)
          tx := s.tx ++ bytes ++ le16 (checksum bytes), fbCnt := 0, engState := .awaitFrame }

/-! ## WRIT -/

/-- R182, R183: a WRIT of a valid index whose checks fail selects its drive, records the first failing check, answers one
readiness frame NOT_READY and ends there. -/
def Obligations.WritNotReadyEndsTheExchange : Prop :=
  ∀ (s : State) (drv : BitVec 4) (trk : BitVec 12) (len : U16), s.dt.length = s.params.nDrives →
    drv.toNat < s.params.nDrives → CheckFails s drv trk len →
    ∃ dt', Selected s.dt drv.toNat true id dt' ∧
      exec (.writ drv trk len) s = .next { s with
        writCnt := inc s s.writCnt, dt := dt', errCnt := inc s s.errCnt, lastErr := checkCode s drv len
        tx := s.tx ++ readinessNotReady, fbCnt := 0, engState := .awaitFrame }

/-- R184, R182: a WRIT whose checks pass selects its drive, sets curTrack, answers one readiness frame OK, latches its
operands, clears the two counts and enters WRIT_PAYLOAD. -/
def Obligations.WritReadyOpensThePayload : Prop :=
  ∀ (s : State) (drv : BitVec 4) (trk : BitVec 12) (len : U16), s.dt.length = s.params.nDrives →
    drv.toNat < s.params.nDrives → ¬CheckFails s drv trk len →
    ∃ dt', Selected s.dt drv.toNat true (withTrack (trk.zeroExtend 16)) dt' ∧
      exec (.writ drv trk len) s = .next { s with
        writCnt := inc s s.writCnt, dt := dt', tx := s.tx ++ readinessOK
        cmdDrv := drv, cmdTrk := trk, cmdLen := len, tbCnt := 0, fbCnt := 0, engState := .writPayload }

/-- R193, R187 (codes 11 and 12: decision D10): after a WSTA of CHECKSUM_ERROR, for a payload whose trailer is not its checksum or one cut short by the payload
timeout, the store is unchanged, contents and position; the diagnostic is recorded and the engine is back in AWAIT_FRAME. -/
def Obligations.ChecksumErrorLeavesTheStore : Prop :=
  (∀ (s : State) (payload : List Byte) (k : U16), payload.length = s.cmdLen.toNat → checksum payload ≠ k →
    exec (.data payload k) s = .next { s with
      errCnt := inc s s.errCnt, lastErr := 11, tx := s.tx ++ wstaChecksumError, fbCnt := 0, engState := .awaitFrame }) ∧
  (∀ s u : State, EventNext .payloadTimeout s u → s.engState = .writPayload →
    step s = .next { u with
      errCnt := inc s s.errCnt, lastErr := 12, tx := s.tx ++ wstaChecksumError, fbCnt := 0, engState := .awaitFrame })

/-- 93 (the model's choice, log 13): a DATA block that is not CMD_LEN bytes is in no state of the rules, and stops by name. -/
def Obligations.DataOfAnotherLengthStops : Prop :=
  ∀ (s : State) (payload : List Byte) (k : U16), payload.length ≠ s.cmdLen.toNat →
    exec (.data payload k) s = .fault .blockLength

/-- R189, R190 under the reference store (R58, decision D19): a payload with its right checksum is written at
CMD_TRK * CMD_LEN of CMD_DRV's store and answered WSTA OK; a gap past the old end reads 0x00; every other byte of every store
reads as before. -/
def Obligations.DataIsWrittenToTheReferenceStore : Prop :=
  ∀ (s : State) (payload : List Byte) (h : Handle) (f : File), Inv s → s.engState = .writCommit →
    s.params.store = .reference → payload.length = s.cmdLen.toNat → s.openStore s.cmdDrv.toNat = some (h, f) →
    ∃ files', exec (.data payload (checksum payload)) s = .next { s with
        files := files', storePos := s.storePos.set s.cmdDrv.toNat (offsetOf s.cmdTrk s.cmdLen + payload.length)
        tx := s.tx ++ wstaOK, fbCnt := 0, engState := .awaitFrame } ∧
      (∀ i < payload.length,
        (withFiles s files').storeByte h (offsetOf s.cmdTrk s.cmdLen + i) = some (payload.getD i 0)) ∧
      (∀ a, f.size ≤ a → a < offsetOf s.cmdTrk s.cmdLen → (withFiles s files').storeByte h a = some 0x00) ∧
      (∀ h' a, h' ≠ h ∨ offsetOf s.cmdTrk s.cmdLen + payload.length ≤ a ∨
          (a < offsetOf s.cmdTrk s.cmdLen ∧ a < f.size) →
        (withFiles s files').storeByte h' a = s.storeByte h' a)

/-- R191, R190, R57 (decision D19): in a store within R57 a payload with its right checksum is answered WRITE_ERROR with
nothing written if the seek fails; WRITE_ERROR with the first k bytes written if the store takes k of them; OK with all of them
written if it takes all. Outside the track the bytes of the old file read as before, and if the track ends inside the old file
so does its end (log 12); every other file reads as before. -/
def Obligations.DataTakesAnyStoreAnswer : Prop :=
  ∀ (s : State) (payload : List Byte) (h : Handle) (f : File) (k : Nat), Inv s → s.engState = .writCommit →
    s.params.store = .oracle → payload.length = s.cmdLen.toNat → s.openStore s.cmdDrv.toNat = some (h, f) →
    k = min s.dropDraw.peekDraw.count payload.length →
    (s.peekDraw.seekOk = false →
      exec (.data payload (checksum payload)) s = .next { s.dropDraw with
        storePos := s.storePos.set s.cmdDrv.toNat s.peekDraw.seekPos, errCnt := inc s s.errCnt, lastErr := 8
        tx := s.tx ++ wstaWriteError, fbCnt := 0, engState := .awaitFrame }) ∧
    (s.peekDraw.seekOk = true →
      ∃ files',
        (exec (.data payload (checksum payload)) s =
          if k < payload.length then .next { s.dropDraw.dropDraw with
            files := files', storePos := s.storePos.set s.cmdDrv.toNat (offsetOf s.cmdTrk s.cmdLen + k)
            errCnt := inc s s.errCnt, lastErr := 10, tx := s.tx ++ wstaWriteError, fbCnt := 0, engState := .awaitFrame }
          else .next { s.dropDraw.dropDraw with
            files := files', storePos := s.storePos.set s.cmdDrv.toNat (offsetOf s.cmdTrk s.cmdLen + k)
            tx := s.tx ++ wstaOK, fbCnt := 0, engState := .awaitFrame }) ∧
        (∀ i < k, (withFiles s files').storeByte h (offsetOf s.cmdTrk s.cmdLen + i) = some (payload.getD i 0)) ∧
        (∀ h' a, h' ≠ h ∨
            ((a < f.size ∨ offsetOf s.cmdTrk s.cmdLen + payload.length ≤ f.size) ∧
              (a < offsetOf s.cmdTrk s.cmdLen ∨ offsetOf s.cmdTrk s.cmdLen + payload.length ≤ a)) →
          (withFiles s files').storeByte h' a = s.storeByte h' a))

/-- 20_memory.md R62, 44_writ.md R192 (derived there) under the reference store: what a WRIT wrote, a READ of the same drive,
track and length right after it sends back, with the payload's checksum. -/
def Obligations.WrittenTrackReadsBack : Prop :=
  ∀ (s : State) (payload : List Byte), Inv s → s.engState = .writCommit → s.params.store = .reference →
    payload.length = s.cmdLen.toNat →
    ∃ t u, exec (.data payload (checksum payload)) s = .next t ∧ t.tx = s.tx ++ wstaOK ∧
      exec (.read s.cmdDrv s.cmdTrk s.cmdLen) t = .next u ∧
      u.tx = t.tx ++ payload ++ le16 (checksum payload) ∧ u.files = t.files

/-! ## The response rows -/

/-- R154, R182, R188 (`param2 = 0x0000`: decision D8): a response frame is emitted as its ten bytes, and ends the exchange,
but for a readiness of OK, which opens the payload phase. Nothing else changes. -/
def Obligations.ResponseFramesAreEmitted : Prop :=
  ∀ s : State,
    (∀ map, exec (.statResp map) s =
      .next { s with tx := s.tx ++ statResponse map, fbCnt := 0, engState := .awaitFrame }) ∧
    exec (.writRdy .ok) s =
      .next { s with tx := s.tx ++ readinessOK, tbCnt := 0, fbCnt := 0, engState := .writPayload } ∧
    exec (.writRdy .notReady) s =
      .next { s with tx := s.tx ++ readinessNotReady, fbCnt := 0, engState := .awaitFrame } ∧
    exec (.wsta .ok) s = .next { s with tx := s.tx ++ wstaOK, fbCnt := 0, engState := .awaitFrame } ∧
    exec (.wsta .checksumError) s =
      .next { s with tx := s.tx ++ wstaChecksumError, fbCnt := 0, engState := .awaitFrame } ∧
    exec (.wsta .writeError) s = .next { s with tx := s.tx ++ wstaWriteError, fbCnt := 0, engState := .awaitFrame }

/-- R165: a track block goes to the front of TB and out, its data and then their checksum, little-endian, with no frame around
it; and the command ends. A block longer than TB is in no state of the rules, and stops by name. -/
def Obligations.TrackBlockIsEmitted : Prop :=
  ∀ (s : State) (bytes : List Byte),
    exec (.track bytes) s =
      if bytes.length + 2 ≤ s.tb.length then .next { s with
        tb := bytes ++ le16 (checksum bytes) ++ s.tb.drop (bytes.length + 2)
        tx := s.tx ++ bytes ++ le16 (checksum bytes), fbCnt := 0, engState := .awaitFrame }
      else .fault .blockLength

/-! ## Frames -/

/-- R150, R160, R180 (their lists of state written), R189: no row of the table writes the instance, the receive stream, FB, the
link, the held request, the operator's snapshot (the model's field, log 17) or the order of steps (the model's field, log 2). -/
def Obligations.RowsKeepTheOutside : Prop :=
  ∀ (i : Instr) (s t : State), exec i s = .next t → OutsideKept s t

/-- 20_memory.md R60: only DATA writes a store; every other row leaves every byte of every store as it reads, whatever the
store answers. That the seek of a READ leaves them too is the model's (log 21). -/
def Obligations.OnlyDataWritesAStore : Prop :=
  ∀ (i : Instr) (s t : State), (∀ payload k, i ≠ .data payload k) → exec i s = .next t → StoresKept s t

/-- 20_memory.md R54, R56: every byte of the old stores that DATA changes lies in the track it names: in the file of CMD_DRV's
handle, at the offset the commit step seeks to, within the payload's length (that a store changes no other byte of the old file:
log 12). CMD_DRV has a store position, as in every state of the invariant. -/
def Obligations.DataWritesOnlyItsTrack : Prop :=
  ∀ (s t : State) (payload : List Byte) (k : U16) (h : Handle) (a : Nat) (b : Byte),
    s.cmdDrv.toNat < s.storePos.length → exec (.data payload k) s = .next t → s.storeByte h a = some b →
    ¬((s.slot s.cmdDrv.toNat).handle = some h ∧ (trackOffset s.cmdTrk s.cmdLen).toNat ≤ a ∧
      a < (trackOffset s.cmdTrk s.cmdLen).toNat + payload.length) →
    t.storeByte h a = some b

/-! ## The operator -/

/-- R211, R213, R214 (tier values of R212: decision D4; performed at once in AWAIT_FRAME, R216: decision D11): MOUNT of an unmounted slot sets its handle and maxTrack, one less
than the track count of its size's tier, both thresholds strict, and leaves curTrack and the flags; the wire, FB, TB and
ENG_STATE stay. UNMOUNT of a mounted slot clears it. No other slot changes. That MOUNT keeps the bytes of every file the state lists, and
that UNMOUNT keeps the files and the store's positions, is the model's choice (log 7, log 10). -/
def Obligations.MountAndUnmount : Prop :=
  ∀ s u : State, s.engState = .awaitFrame → s.dt.length = s.params.nDrives →
    (∀ d h size, d < s.params.nDrives → (s.slot d).mounted = false → EventNext (.request (.mount d h size)) s u →
      ∃ t, step s = .next t ∧ t.dt.length = s.dt.length ∧
        (t.slot d).mounted = true ∧ (t.slot d).handle = some h ∧
        (t.slot d).maxTrack.toNat =
          ((if size.toNat < s.params.tiers.t1 then s.params.tiers.c1
            else if size.toNat < s.params.tiers.t2 then s.params.tiers.c2 else s.params.tiers.c3) - 1) % 65536 ∧
        (t.slot d).curTrack = (s.slot d).curTrack ∧ (t.slot d).enabled = (s.slot d).enabled ∧
        (t.slot d).headLoaded = (s.slot d).headLoaded ∧ (∀ j, j ≠ d → t.slot j = s.slot j) ∧
        t = { u with dt := t.dt, files := t.files, storePos := t.storePos } ∧
        (∀ h' a b, s.storeByte h' a = some b → t.storeByte h' a = some b)) ∧
    (∀ d, d < s.params.nDrives → (s.slot d).mounted = true → EventNext (.request (.unmount d)) s u →
      ∃ dt', step s = .next { u with dt := dt' } ∧ dt'.length = s.dt.length ∧
        ∀ j < s.dt.length, dt'.getD j .empty = if j = d then
          { mounted := false, handle := none, maxTrack := 0, curTrack := 0, enabled := false, headLoaded := false }
          else s.slot j)

/-- R214, R215, R216 (decisions D11, D12; an unmounted slot's UNMOUNT is log 18): a request made in AWAIT_FRAME with none held
is performed in that step; MOUNT of a mounted slot acts as UNMOUNT followed by MOUNT, and UNMOUNT of an unmounted slot changes
nothing. -/
def Obligations.RemountIsUnmountThenMount : Prop :=
  (∀ (s u : State) (r : OpRequest), EventNext (.request r) s u → s.opPend = none → s.engState = .awaitFrame →
    step s = .next (performRequest r u)) ∧
  (∀ (s : State) (d : Nat) (h : Handle) (size : U64), (s.slot d).mounted = true →
    performRequest (.mount d h size) s = performRequest (.mount d h size) (performRequest (.unmount d) s)) ∧
  (∀ (s : State) (d : Nat), (s.slot d).mounted = false → performRequest (.unmount d) s = s)

/-- R216, R35, R210 (decisions D11, D12): a request made outside AWAIT_FRAME is held; at the first boundary with AWAIT_FRAME
it is performed, before anything but reset and close (log 14), and is then gone; a request while one is held, or for no drive,
changes nothing, and one for no drive is never held (log 22). -/
def Obligations.RequestsWaitForTheEndOfACommand : Prop :=
  (∀ (s u : State) (r : OpRequest), EventNext (.request r) s u → s.engState ≠ .awaitFrame →
    step s = .next (if s.opPend = none ∧ r.accepted s.params = true then { u with opPend := some r } else u)) ∧
  (∀ (s u : State) (r : OpRequest), EventNext (.request r) s u → r.accepted s.params = false → step s = .next u) ∧
  (∀ (s : State) (r : OpRequest), s.opPend = some r → s.engState = .awaitFrame → s.shapeFault = none →
    (∀ rest, s.turns ≠ .reset :: rest ∧ s.turns ≠ .linkDown :: rest) →
    step s = .next (performRequest r { s with opPend := none }))

/-- R38 (decision D33): STATUS is a snapshot of the slots, ENG_STATE, the counters and LAST_ERR, and has no side effect. -/
def Obligations.StatusReadsWithoutSideEffect : Prop :=
  ∀ s u : State, EventNext .status s u →
    ∃ v : Status, step s = .next { u with statusOut := some v } ∧ v.engState = s.engState ∧ v.dt = s.dt ∧
      v.statCnt = s.statCnt ∧ v.readCnt = s.readCnt ∧ v.writCnt = s.writCnt ∧ v.errCnt = s.errCnt ∧
      v.lastErr = s.lastErr

/-! ## Timer, link, reset -/

/-- R109: with 1 to 9 bytes of a frame received, the frame deadline discards them with PARTIAL_FRAME (code 2: decision D10),
sends nothing, and the engine goes on waiting. -/
def Obligations.FrameDeadlineDiscardsAPartialFrame : Prop :=
  ∀ s u : State, EventNext .frameDeadline s u → s.engState = .awaitFrame → 1 ≤ s.fbCnt →
    step s = .next { u with errCnt := inc s s.errCnt, lastErr := 2, fbCnt := 0 }

/-- R134, R110 (decision D14): a timeout where it has no effect does nothing and is not remembered. -/
def Obligations.EventsElsewhereDoNothing : Prop :=
  (∀ s u : State, EventNext .frameDeadline s u → s.engState ≠ .awaitFrame ∨ s.fbCnt = 0 → step s = .next u) ∧
  (∀ s u : State, EventNext .payloadTimeout s u → s.engState ≠ .writPayload → step s = .next u)

/-- R265, R255 (decision D15): when the link closes, the command in progress is abandoned, the counts are cleared and the
engine waits; nothing is emitted, the drive table, the counters and LAST_ERR are kept; and while the link is closed the engine's
turn, an empty list of turns included (log 2), changes nothing and no byte arrives. The receive FIFO is kept (log 15). -/
def Obligations.LinkCloseAbandonsTheCommand : Prop :=
  (∀ (s : State) rest, s.turns = .linkDown :: rest → s.shapeFault = none → s.linkOpen = true →
    step s = .next { s with turns := rest, linkOpen := false, fbCnt := 0, tbCnt := 0, engState := .awaitFrame }) ∧
  (∀ s u : State, EngineTurn s u → s.linkOpen = false → step s = .next u) ∧
  (∀ (s u : State) b, EventNext (.byte b) s u →
    step s = .next (if s.linkOpen = true then { u with rx := s.rx ++ [b] } else u))

/-- R255, R263, R265 (decision D15): the link opens in a step that changes nothing else, and finds the engine waiting for byte 0
of a frame. -/
def Obligations.LinkOpensOnAnEmptyFrame : Prop :=
  ∀ s u : State, EventNext .linkUp s u → s.linkOpen = false →
    step s = .next { u with linkOpen := true } ∧ s.engState = .awaitFrame ∧ s.fbCnt = 0

/-- R260, R261 (decision D13): reset acts in any state as one step; every field of the block takes its reset value, nothing is
emitted, and what the transport, the store and the operator hold stays: the streams and the link's level (log 6), the files, the
positions and the answers to come (log 9), the operator's snapshot (log 17), and the turns (log 2). FB, TB and the latch: log 5. -/
def Obligations.ResetActsInAnyState : Prop :=
  ∀ (s : State) rest, s.turns = .reset :: rest →
    ∃ t, step s = .next t ∧ t.engState = .awaitFrame ∧ t.fbCnt = 0 ∧ t.tbCnt = 0 ∧
      t.tb.length = s.params.maxTrackLen + 2 ∧ t.dt.length = s.params.nDrives ∧
      (∀ d, t.slot d =
        { mounted := false, handle := none, maxTrack := 0, curTrack := 0, enabled := false, headLoaded := false }) ∧
      t.statCnt = 0 ∧ t.readCnt = 0 ∧ t.writCnt = 0 ∧ t.errCnt = 0 ∧ t.lastErr = 0 ∧ t.opPend = none ∧
      t.params = s.params ∧ t.rx = s.rx ∧ t.tx = s.tx ∧ t.linkOpen = s.linkOpen ∧ t.files = s.files ∧
      t.storePos = s.storePos ∧ t.draws = s.draws ∧ t.drawCnt = s.drawCnt ∧ t.statusOut = s.statusOut ∧ t.turns = rest

/-- 10_state.md R40 (values of decision D13): the machine after reset waits for byte 0 of a frame with every drive unmounted,
no error, no count, no request, in the instance of 92 D32 (the model's choice, log 1). -/
def Obligations.ResetLeavesTheEngineWaiting : Prop :=
  State.reset.engState = .awaitFrame ∧ State.reset.fbCnt = 0 ∧ State.reset.tbCnt = 0 ∧ State.reset.opPend = none ∧
  (∀ d, (State.reset.slot d).mounted = false ∧ (State.reset.slot d).handle = none ∧
    (State.reset.slot d).enabled = false ∧ (State.reset.slot d).maxTrack = 0) ∧
  State.reset.statCnt = 0 ∧ State.reset.readCnt = 0 ∧ State.reset.writCnt = 0 ∧ State.reset.errCnt = 0 ∧
  State.reset.lastErr = 0

/-! ## Every step -/

/-- R5, R32, R39, and what the rules keep: the invariant holds after reset, in every legal instance. -/
def Obligations.InvariantHoldsAtReset : Prop :=
  Inv State.reset ∧ ∀ p : Params, p.wf = true → Inv (State.powerOn p)

/-- R32, R129 (derived there), R39: every step keeps the invariant, in every instance and every store. -/
def Obligations.InvariantIsKept : Prop := ∀ s t : State, Inv s → step s = .next t → Inv t

/-- R230: no error is fatal: from a state of the invariant every step goes on. -/
def Obligations.NoStepIsFatal : Prop := ∀ s : State, Inv s → ∃ t, step s = .next t

/-- R36: no step writes a parameter. -/
def Obligations.ParametersAreNeverWritten : Prop := ∀ s t : State, step s = .next t → t.params = s.params

/-- R120 (the split of Dispatching: decision D29): every change of ENG_STATE is a transition of the table, made by that
transition's step; and in DISPATCH and WRIT_COMMIT the engine never waits. -/
def Obligations.EngineStateTransitions : Prop :=
  ∀ s t : State, step s = .next t →
    (t.engState = s.engState ∨
      (s.engState = .awaitFrame ∧ t.engState = .dispatch ∧ (takeTurn s).1 = .engine ∧ s.fbCnt = 9 ∧ t.fbCnt = 10) ∨
      (s.engState = .dispatch ∧ t.engState = .awaitFrame ∧ (takeTurn s).1 = .engine ∧ t.fbCnt = 0) ∨
      (s.engState = .dispatch ∧ t.engState = .writPayload ∧ (takeTurn s).1 = .engine ∧ t.tx = s.tx ++ readinessOK) ∨
      (s.engState = .writPayload ∧ t.engState = .writCommit ∧ (takeTurn s).1 = .engine ∧
        t.tbCnt = t.cmdLen.toNat + 2) ∨
      (s.engState = .writPayload ∧ t.engState = .awaitFrame ∧ (takeTurn s).1 = .payloadTimeout ∧
        t.tx = s.tx ++ wstaChecksumError) ∨
      (s.engState = .writCommit ∧ t.engState = .awaitFrame ∧ (takeTurn s).1 = .engine ∧
        ∃ o, t.tx = s.tx ++ encode (.wsta o)) ∨
      (t.engState = .awaitFrame ∧ ((takeTurn s).1 = .reset ∨ (takeTurn s).1 = .linkDown))) ∧
    ((takeTurn s).1 = .engine → s.linkOpen = true → s.engState = .dispatch ∨ s.engState = .writCommit →
      t.engState ≠ s.engState)

/-- R3, R133 (derived there): a step emits nothing or exactly one response row of the table, well formed, at the end of what
was emitted before; and it emits only in the dispatch step, the commit step or the payload timeout. -/
def Obligations.AStepEmitsOneResponse : Prop :=
  ∀ s t : State, step s = .next t → t.tx = s.tx ∨
    ∃ r, isResponse r ∧ r.wf s.params = true ∧ t.tx = s.tx ++ encode r ∧
      (((takeTurn s).1 = .engine ∧ (s.engState = .dispatch ∨ s.engState = .writCommit)) ∨
        ((takeTurn s).1 = .payloadTimeout ∧ s.engState = .writPayload ∧ r = .wsta .checksumError))

/-- R62, R193: from a state of the invariant a byte of a store changes only in the commit step of a payload whose checksum is
right, in the file of CMD_DRV and within the track CMD_TRK of CMD_LEN bytes. That a store changes no byte outside the track, and
that MOUNT and UNMOUNT change no byte of a file the state lists, is the model's (log 12, log 7). -/
def Obligations.OnlyTheCommitStepWritesStores : Prop :=
  ∀ (s t : State) (h : Handle) (a : Nat) (b : Byte), Inv s → step s = .next t → s.storeByte h a = some b →
    t.storeByte h a ≠ some b →
    (takeTurn s).1 = .engine ∧ s.engState = .writCommit ∧ (s.slot s.cmdDrv.toNat).handle = some h ∧
      offsetOf s.cmdTrk s.cmdLen ≤ a ∧ a < offsetOf s.cmdTrk s.cmdLen + s.cmdLen.toNat ∧
      checksum (s.tb.take s.cmdLen.toNat) = rd16 s.tb s.cmdLen.toNat

/-- R28, R29, R243 (decision D24): only the operator's operations and reset write mounted, handle or maxTrack of a slot. -/
def Obligations.OnlyTheOperatorMounts : Prop :=
  ∀ s t : State, step s = .next t → (takeTurn s).1 ≠ .reset → (takeTurn s).1 ≠ .performHeld →
    (∀ r, (takeTurn s).1 ≠ .request r) →
    ∀ d, (t.slot d).mounted = (s.slot d).mounted ∧ (t.slot d).handle = (s.slot d).handle ∧
      (t.slot d).maxTrack = (s.slot d).maxTrack

/-- R33, R30, R31: no rule reads a counter, LAST_ERR, curTrack or a selection flag: from two states that differ only there, the
steps go on together and end in two states that differ only there, with the same bytes emitted. -/
def Obligations.DiagnosticsNeverReachTheWire : Prop :=
  ∀ s s' t : State, SameButDiagnostics s s' → step s = .next t →
    ∃ t', step s' = .next t' ∧ SameButDiagnostics t t' ∧ t'.tx = t.tx ∧ t'.files = t.files

/-- R278 (decision D14): a quiescent block takes no step: the engine's turn leaves it as it is. -/
def Obligations.QuiescentBlockStays : Prop :=
  ∀ s : State, Quiescent s → s.turns = [] → s.shapeFault = none → step s = .next s
end

