-- ==== Sys2Proof/Laws/Codec.lean ====
section
/-! SUPPORT. The small laws of the checksum, of little-endian fields and of the operand fields. -/

namespace Sys2Proof

/-! ## Checksum -/

theorem checksum_nil : checksum [] = 0 := rfl

theorem foldl_sum (s : List Byte) (acc : U16) :
    s.foldl (fun acc x => acc + x.zeroExtend 16) acc = acc + checksum s := by
  unfold checksum
  induction s generalizing acc with
  | nil => simp
  | cons x s ih => rw [List.foldl_cons, List.foldl_cons, ih, ih (0 + x.zeroExtend 16)]; simp [BitVec.add_assoc]

theorem checksum_cons (x : Byte) (s : List Byte) : checksum (x :: s) = x.zeroExtend 16 + checksum s := by
  conv_lhs => unfold checksum
  rw [List.foldl_cons, foldl_sum]; simp

/-! ## Little-endian fields -/

@[simp] theorem length_le16 (v : U16) : (le16 v).length = 2 := rfl

/-- A u16 is its two bytes, the low one first. -/
theorem append_extract (v : U16) : (v.extractLsb' 8 8 ++ v.extractLsb' 0 8 : BitVec (8 + 8)) = v := by
  ext i hi
  rw [BitVec.getElem_append]
  split
  · simp [BitVec.getLsbD_eq_getElem hi]
  · simp [show 8 + (i - 8) = i by omega, BitVec.getLsbD_eq_getElem hi]

theorem extract_low_append {n m : Nat} (x : BitVec n) (y : BitVec m) : (x ++ y).extractLsb' 0 m = y := by
  ext i hi; simp [BitVec.getLsbD_append, hi]

theorem extract_high_append {n m : Nat} (x : BitVec n) (y : BitVec m) : (x ++ y).extractLsb' m n = x := by
  ext i hi; simp [BitVec.getLsbD_append, BitVec.getLsbD_eq_getElem hi]

theorem extract_low (a b : Byte) : (b ++ a : BitVec (8 + 8)).extractLsb' 0 8 = a := extract_low_append b a

theorem extract_high (a b : Byte) : (b ++ a : BitVec (8 + 8)).extractLsb' 8 8 = b := extract_high_append b a

/-- Reading a stored u16 gives it back. -/
theorem rd16_le16 (v : U16) : rd16 (le16 v) 0 = v := append_extract v

theorem rd16_append_left (l r : List Byte) {i : Nat} (h : i + 1 < l.length) : rd16 (l ++ r) i = rd16 l i := by
  unfold rd16
  rw [List.getD_append _ _ _ _ h, List.getD_append _ _ _ _ (by omega)]

theorem rd16_append_right (l r : List Byte) (i : Nat) : rd16 (l ++ r) (l.length + i) = rd16 r i := by
  unfold rd16
  rw [List.getD_append_right _ _ _ _ (by omega), List.getD_append_right _ _ _ _ (by omega),
    show l.length + i + 1 - l.length = i + 1 by omega, show l.length + i - l.length = i by omega]

/-- The u16 that ends a list of bytes. -/
theorem rd16_last (l : List Byte) (v : U16) : rd16 (l ++ le16 v) l.length = v := by
  have := rd16_append_right l (le16 v) 0
  rw [Nat.add_zero] at this
  rw [this, rd16_le16]

/-- Two bytes read as a u16 and stored again are themselves. -/
theorem le16_pair (a b : Byte) : le16 (b ++ a : BitVec (8 + 8)) = [a, b] := by
  simp only [le16, extract_low, extract_high]

/-! ## Operand fields -/

theorem statParam1_sel (sel hl : BitVec 8) : (statParam1 sel hl).extractLsb' 0 8 = sel := extract_low sel hl

theorem statParam1_hl (sel hl : BitVec 8) : (statParam1 sel hl).extractLsb' 8 8 = hl := extract_high sel hl

theorem trackParam1_trk (drv : BitVec 4) (trk : BitVec 12) : (trackParam1 drv trk).extractLsb' 0 12 = trk :=
  extract_low_append drv trk

theorem trackParam1_drv (drv : BitVec 4) (trk : BitVec 12) : (trackParam1 drv trk).extractLsb' 12 4 = drv :=
  extract_high_append drv trk

/-! ## Lengths -/

@[simp] theorem length_makeTrack (p : List Byte) : (makeTrack p).length = p.length + 2 := by simp [makeTrack]

@[simp] theorem length_makeFrame (tag : List Byte) (p1 p2 : U16) : (makeFrame tag p1 p2).length = tag.length + 6 := by
  simp [makeFrame]

end Sys2Proof
end

