-- ==== Sys2Proof/Laws/Memory.lean ====
section
/-! SUPPORT. The laws of tables by number, of a memory in canonical form, and of reading and writing a file. -/

namespace Sys2Proof.Machine

section Table

variable {α : Type}

theorem keysRising_cons {k : Nat} {v : α} {l : List (Nat × α)} :
    keysRising ((k, v) :: l) = true ↔ (∀ c ∈ l, k < c.1) ∧ keysRising l = true := by
  simp [keysRising]

theorem kvGet_of_forall_lt {l : List (Nat × α)} {a : Nat} (h : ∀ c ∈ l, a < c.1) : kvGet l a = none := by
  induction l with
  | nil => rfl
  | cons c l ih =>
    have h1 := h c (by simp)
    have : c.1 ≠ a := by omega
    simp [kvGet, this, ih fun x hx => h x (by simp [hx])]

theorem mem_of_kvGet {l : List (Nat × α)} {a : Nat} {v : α} (h : kvGet l a = some v) : (a, v) ∈ l := by
  induction l with
  | nil => simp [kvGet] at h
  | cons c l ih =>
    by_cases hc : c.1 = a
    · simp [kvGet, hc] at h; simp [← h, ← hc]
    · simp [kvGet, hc] at h; simp [ih h]

theorem kvGet_kvPut_same (l : List (Nat × α)) (a : Nat) (v : α) : kvGet (kvPut l a v) a = some v := by
  induction l with
  | nil => simp [kvPut, kvGet]
  | cons c l ih =>
    unfold kvPut
    split
    · simp [kvGet]
    · split
      · simp [kvGet]
      · rename_i h1 h2
        simp [kvGet, Ne.symm h2, ih]

theorem kvGet_kvPut_other (l : List (Nat × α)) {a b : Nat} (v : α) (h : b ≠ a) :
    kvGet (kvPut l a v) b = kvGet l b := by
  induction l with
  | nil => simp [kvPut, kvGet, Ne.symm h]
  | cons c l ih =>
    unfold kvPut
    split
    · simp [kvGet, Ne.symm h]
    · split
      · rename_i h2
        simp [kvGet, Ne.symm h, ← h2]
      · simp [kvGet, ih]

theorem mem_kvPut {l : List (Nat × α)} {a : Nat} {v : α} {c : Nat × α} (h : c ∈ kvPut l a v) : c = (a, v) ∨ c ∈ l := by
  induction l with
  | nil => simpa [kvPut] using h
  | cons x l ih =>
    unfold kvPut at h
    split at h
    · simpa using h
    · split at h
      · rcases List.mem_cons.1 h with h | h
        · exact .inl h
        · exact .inr (by simp [h])
      · rcases List.mem_cons.1 h with h | h
        · exact .inr (by simp [h])
        · rcases ih h with h | h
          · exact .inl h
          · exact .inr (by simp [h])

theorem keysRising_kvPut {l : List (Nat × α)} (a : Nat) (v : α) (h : keysRising l = true) :
    keysRising (kvPut l a v) = true := by
  induction l with
  | nil => simp [kvPut, keysRising]
  | cons c l ih =>
    obtain ⟨k, w⟩ := c
    have ⟨h1, h2⟩ := keysRising_cons.1 h
    unfold kvPut
    split
    · rename_i hlt
      refine keysRising_cons.2 ⟨fun c hc => ?_, h⟩
      rcases List.mem_cons.1 hc with rfl | hc
      · exact hlt
      · have := h1 c hc; omega
    · split
      · rename_i hge heq
        exact keysRising_cons.2 ⟨fun c hc => heq ▸ h1 c hc, h2⟩
      · rename_i hge hne
        refine keysRising_cons.2 ⟨fun c hc => ?_, ih h2⟩
        rcases mem_kvPut hc with rfl | hc
        · show k < a; omega
        · exact h1 c hc

theorem mem_kvDel {l : List (Nat × α)} {a : Nat} {c : Nat × α} (h : c ∈ kvDel l a) : c ∈ l := by
  induction l with
  | nil => simp [kvDel] at h
  | cons x l ih =>
    unfold kvDel at h
    split at h
    · simp [h]
    · rcases List.mem_cons.1 h with h | h
      · simp [h]
      · simp [ih h]

theorem keysRising_kvDel {l : List (Nat × α)} (a : Nat) (h : keysRising l = true) : keysRising (kvDel l a) = true := by
  induction l with
  | nil => simp [kvDel, keysRising]
  | cons c l ih =>
    have ⟨h1, h2⟩ := keysRising_cons.1 h
    unfold kvDel
    split
    · exact h2
    · exact keysRising_cons.2 ⟨fun c hc => h1 c (mem_kvDel hc), ih h2⟩

theorem kvGet_kvDel_same {l : List (Nat × α)} (a : Nat) (h : keysRising l = true) : kvGet (kvDel l a) a = none := by
  induction l with
  | nil => rfl
  | cons c l ih =>
    obtain ⟨k, w⟩ := c
    have ⟨h1, h2⟩ := keysRising_cons.1 h
    unfold kvDel
    split
    · rename_i heq
      exact kvGet_of_forall_lt fun c hc => heq ▸ h1 c hc
    · rename_i hne
      simp [kvGet, hne, ih h2]

theorem kvGet_kvDel_other (l : List (Nat × α)) {a b : Nat} (h : b ≠ a) : kvGet (kvDel l a) b = kvGet l b := by
  induction l with
  | nil => rfl
  | cons c l ih =>
    unfold kvDel
    split
    · rename_i heq
      simp [kvGet, heq, Ne.symm h]
    · simp [kvGet, ih]

end Table

/-! ## Memory -/

theorem Memory.byte_write_same {m : Memory} (a : Nat) (b : Byte) (h : keysRising m = true) :
    Memory.byte (Memory.write m a b) a = b := by
  unfold Memory.byte Memory.write
  split
  · rename_i hb
    simp [kvGet_kvDel_same a h, hb]
  · simp [kvGet_kvPut_same]

theorem Memory.byte_write_other (m : Memory) {a c : Nat} (b : Byte) (h : c ≠ a) :
    Memory.byte (Memory.write m a b) c = Memory.byte m c := by
  unfold Memory.byte Memory.write
  split
  · simp [kvGet_kvDel_other m h]
  · simp [kvGet_kvPut_other m b h]

theorem Memory.mem_write {m : Memory} {a : Nat} {b : Byte} {c : Host.Cell} (h : c ∈ Memory.write m a b) :
    (c.1 = a ∧ c.2 ≠ Memory.unlisted) ∨ c ∈ m := by
  unfold Memory.write at h
  split at h
  · exact .inr (mem_kvDel h)
  · rename_i hb
    rcases mem_kvPut h with rfl | h
    · exact .inl ⟨rfl, hb⟩
    · exact .inr h

theorem Memory.keysRising_write {m : Memory} (a : Nat) (b : Byte) (h : keysRising m = true) :
    keysRising (Memory.write m a b) = true := by
  unfold Memory.write
  split
  · exact keysRising_kvDel a h
  · exact keysRising_kvPut a b h

theorem Memory.wf_nil : Memory.wf [] = true := by decide

/-- Writing a byte keeps the canonical form. -/
theorem Memory.wf_write {m : Memory} (a : Nat) (b : Byte) (h : Memory.wf m = true) :
    Memory.wf (Memory.write m a b) = true := by
  simp only [Memory.wf, Bool.and_eq_true, List.all_eq_true, bne_iff_ne] at h ⊢
  refine ⟨Memory.keysRising_write a b h.1, fun c hc => ?_⟩
  rcases Memory.mem_write hc with hc | hc
  · exact hc.2
  · exact h.2 c hc

theorem Memory.keysRising_writeList {m : Memory} (bs : List Byte) (a : Nat) (h : keysRising m = true) :
    keysRising (Memory.writeList m a bs) = true := by
  induction bs generalizing m a with
  | nil => exact h
  | cons b bs ih => exact ih _ (Memory.keysRising_write a b h)

/-- Writing a list of bytes keeps the canonical form. -/
theorem Memory.wf_writeList {m : Memory} (bs : List Byte) (a : Nat) (h : Memory.wf m = true) :
    Memory.wf (Memory.writeList m a bs) = true := by
  induction bs generalizing m a with
  | nil => exact h
  | cons b bs ih => exact ih _ (Memory.wf_write a b h)

theorem Memory.mem_writeList {m : Memory} {bs : List Byte} {a : Nat} {c : Host.Cell}
    (h : c ∈ Memory.writeList m a bs) : (a ≤ c.1 ∧ c.1 < a + bs.length) ∨ c ∈ m := by
  induction bs generalizing m a with
  | nil => exact .inr h
  | cons b bs ih =>
    rcases ih h with h | h
    · exact .inl ⟨by omega, by simp only [List.length_cons]; omega⟩
    · rcases Memory.mem_write h with h | h
      · exact .inl ⟨by omega, by simp only [List.length_cons]; omega⟩
      · exact .inr h

/-- A byte outside the span written reads as before. -/
theorem Memory.byte_writeList_outside (m : Memory) (bs : List Byte) {a c : Nat}
    (h : c < a ∨ a + bs.length ≤ c) : Memory.byte (Memory.writeList m a bs) c = Memory.byte m c := by
  induction bs generalizing m a with
  | nil => rfl
  | cons b bs ih =>
    simp only [List.length_cons] at h
    rw [Memory.writeList, ih _ (by omega), Memory.byte_write_other m b (by omega)]

/-- A byte inside the span written is the byte written. -/
theorem Memory.byte_writeList_inside {m : Memory} (bs : List Byte) {a i : Nat} (hi : i < bs.length)
    (h : keysRising m = true) : Memory.byte (Memory.writeList m a bs) (a + i) = bs.getD i 0 := by
  induction bs generalizing m a i with
  | nil => simp at hi
  | cons b bs ih =>
    cases i with
    | zero =>
      rw [Memory.writeList, Memory.byte_writeList_outside _ _ (by omega), Nat.add_zero, Memory.byte_write_same a b h]
      simp
    | succ i =>
      have hi' : i < bs.length := by simpa using hi
      have := ih (a := a + 1) hi' (Memory.keysRising_write a b h)
      rw [Memory.writeList, show a + (i + 1) = a + 1 + i by omega, this]
      simp

@[simp] theorem Memory.length_readList (m : Memory) (a n : Nat) : (Memory.readList m a n).length = n := by
  induction n generalizing a with
  | zero => rfl
  | succ n ih => simp [Memory.readList, ih]

theorem Memory.getD_readList (m : Memory) (a : Nat) {n i : Nat} (h : i < n) :
    (Memory.readList m a n).getD i 0 = Memory.byte m (a + i) := by
  induction n generalizing a i with
  | zero => omega
  | succ n ih =>
    cases i with
    | zero => simp [Memory.readList]
    | succ i =>
      have := ih (a + 1) (i := i) (by omega)
      rw [Memory.readList, List.getD_cons_succ, this, show a + 1 + i = a + (i + 1) by omega]

/-! ## Files -/

@[simp] theorem File.size_write (f : File) (pos : Nat) (gap bytes : List Byte) :
    (f.write pos gap bytes).size = max f.size (pos + bytes.length) := rfl

@[simp] theorem File.cells_write (f : File) (pos : Nat) (gap bytes : List Byte) : (f.write pos gap bytes).cells =
    Memory.writeList (Memory.writeList f.cells f.size (gap.take (pos - f.size))) pos bytes := rfl

@[simp] theorem File.size_grow (f : File) (n : Nat) (fill : List Byte) : (f.grow n fill).size = max f.size n := rfl

theorem File.byte_of_lt {f : File} {a : Nat} (h : a < f.size) : f.byte a = some (Memory.byte f.cells a) := if_pos h

theorem File.byte_of_ge {f : File} {a : Nat} (h : f.size ≤ a) : f.byte a = none := if_neg (by omega)

@[simp] theorem File.length_read (f : File) (pos n : Nat) : (f.read pos n).length = min n (f.size - pos) := by
  simp [File.read]

/-- Reading a file gives its bytes in order. -/
theorem File.byte_eq_read (f : File) (pos : Nat) {n i : Nat} (h : i < (f.read pos n).length) :
    f.byte (pos + i) = some ((f.read pos n).getD i 0) := by
  rw [File.length_read] at h
  unfold File.read File.byte
  rw [Memory.getD_readList _ _ h, if_pos (by omega)]

theorem File.wf_blank (n : Nat) : (File.blank n).wf = true := by simp [File.wf, File.blank, Memory.wf_nil]

/-- Writing a file keeps its canonical form. -/
theorem File.wf_write {f : File} (pos : Nat) (gap bytes : List Byte) (h : f.wf = true) :
    (f.write pos gap bytes).wf = true := by
  simp only [File.wf, Bool.and_eq_true, List.all_eq_true, decide_eq_true_eq] at h ⊢
  refine ⟨Memory.wf_writeList _ _ (Memory.wf_writeList _ _ h.1), fun c hc => ?_⟩
  simp only [File.write] at hc ⊢
  rcases Memory.mem_writeList hc with hc | hc
  · omega
  · rcases Memory.mem_writeList hc with hc | hc
    · have := List.length_take_le (pos - f.size) gap
      omega
    · have := h.2 c hc; omega

/-- Extending a file keeps its canonical form. -/
theorem File.wf_grow {f : File} (n : Nat) (fill : List Byte) (h : f.wf = true) : (f.grow n fill).wf = true :=
  File.wf_write n fill [] h

theorem File.keysRising_of_wf {f : File} (h : f.wf = true) : keysRising f.cells = true := by
  simp only [File.wf, Memory.wf, Bool.and_eq_true] at h
  exact h.1.1

/-- The bytes written read back. -/
theorem File.byte_write_inside {f : File} (pos : Nat) (gap : List Byte) {bytes : List Byte} {i : Nat}
    (hi : i < bytes.length) (h : f.wf = true) : (f.write pos gap bytes).byte (pos + i) = some (bytes.getD i 0) := by
  rw [File.byte_of_lt (by rw [File.size_write]; omega), File.cells_write,
    Memory.byte_writeList_inside bytes hi (Memory.keysRising_writeList _ _ (File.keysRising_of_wf h))]

/-- Outside the bytes written and the gap before them the file reads as before. -/
theorem File.byte_write_outside (f : File) (pos : Nat) (gap bytes : List Byte) {a : Nat}
    (h : a < pos ∨ pos + bytes.length ≤ a) (hg : a < f.size ∨ pos ≤ a) :
    (f.write pos gap bytes).byte a = f.byte a := by
  have hl := List.length_take_le (pos - f.size) gap
  by_cases h1 : a < f.size
  · rw [File.byte_of_lt h1, File.byte_of_lt (by rw [File.size_write]; omega), File.cells_write,
      Memory.byte_writeList_outside _ _ h, Memory.byte_writeList_outside _ _ (by omega)]
  · have h2 : (f.write pos gap bytes).size ≤ a := by rw [File.size_write]; omega
    rw [File.byte_of_ge h2, File.byte_of_ge (by omega)]

/-- Extending a file leaves the bytes it has. -/
theorem File.byte_grow (f : File) (n : Nat) (fill : List Byte) {a : Nat} (h : a < f.size) :
    (f.grow n fill).byte a = f.byte a :=
  File.byte_write_outside f n fill [] (by simp only [List.length_nil]; omega) (.inl h)

theorem Memory.byte_of_forall_lt {m : Memory} {a : Nat} (h : ∀ c ∈ m, c.1 < a) : Memory.byte m a = Memory.unlisted := by
  unfold Memory.byte
  cases hg : kvGet m a with
  | none => rfl
  | some v => have := h _ (mem_of_kvGet hg); simp at this

/-- In the reference store the gap a write leaves reads 0x00 (R58). -/
theorem File.byte_write_gap {f : File} (pos : Nat) {bytes : List Byte} {a : Nat} (h : f.wf = true) (h1 : f.size ≤ a)
    (h2 : a < pos) : (f.write pos [] bytes).byte a = some 0x00 := by
  simp only [File.wf, Bool.and_eq_true, List.all_eq_true, decide_eq_true_eq] at h
  rw [File.byte_of_lt (by rw [File.size_write]; omega), File.cells_write, List.take_nil, Memory.writeList,
    Memory.byte_writeList_outside _ _ (.inl h2), Memory.byte_of_forall_lt fun c hc => by have := h.2 c hc; omega]
  rfl

end Sys2Proof.Machine
end

