-- ==== Sys2Proof/Laws/State.lean ====
section
/-! SUPPORT. One lemma for each field of the state under each named update, true by definition, and the fields a store
answer leaves alone. -/

namespace Sys2Proof.Machine

/-! ## raiseDiag -/

@[simp] theorem raiseDiag_params (c : Diag) (s : State) : (raiseDiag c s).params = s.params := rfl
@[simp] theorem raiseDiag_engState (c : Diag) (s : State) : (raiseDiag c s).engState = s.engState := rfl
@[simp] theorem raiseDiag_fbCnt (c : Diag) (s : State) : (raiseDiag c s).fbCnt = s.fbCnt := rfl
@[simp] theorem raiseDiag_fb (c : Diag) (s : State) : (raiseDiag c s).fb = s.fb := rfl
@[simp] theorem raiseDiag_tbCnt (c : Diag) (s : State) : (raiseDiag c s).tbCnt = s.tbCnt := rfl
@[simp] theorem raiseDiag_tb (c : Diag) (s : State) : (raiseDiag c s).tb = s.tb := rfl
@[simp] theorem raiseDiag_cmdDrv (c : Diag) (s : State) : (raiseDiag c s).cmdDrv = s.cmdDrv := rfl
@[simp] theorem raiseDiag_cmdTrk (c : Diag) (s : State) : (raiseDiag c s).cmdTrk = s.cmdTrk := rfl
@[simp] theorem raiseDiag_cmdLen (c : Diag) (s : State) : (raiseDiag c s).cmdLen = s.cmdLen := rfl
@[simp] theorem raiseDiag_dt (c : Diag) (s : State) : (raiseDiag c s).dt = s.dt := rfl
@[simp] theorem raiseDiag_statCnt (c : Diag) (s : State) : (raiseDiag c s).statCnt = s.statCnt := rfl
@[simp] theorem raiseDiag_readCnt (c : Diag) (s : State) : (raiseDiag c s).readCnt = s.readCnt := rfl
@[simp] theorem raiseDiag_writCnt (c : Diag) (s : State) : (raiseDiag c s).writCnt = s.writCnt := rfl
@[simp] theorem raiseDiag_errCnt (c : Diag) (s : State) : (raiseDiag c s).errCnt = ctrInc s.params s.errCnt := rfl
@[simp] theorem raiseDiag_lastErr (c : Diag) (s : State) : (raiseDiag c s).lastErr = diagCode c := rfl
@[simp] theorem raiseDiag_opPend (c : Diag) (s : State) : (raiseDiag c s).opPend = s.opPend := rfl
@[simp] theorem raiseDiag_rx (c : Diag) (s : State) : (raiseDiag c s).rx = s.rx := rfl
@[simp] theorem raiseDiag_tx (c : Diag) (s : State) : (raiseDiag c s).tx = s.tx := rfl
@[simp] theorem raiseDiag_linkOpen (c : Diag) (s : State) : (raiseDiag c s).linkOpen = s.linkOpen := rfl
@[simp] theorem raiseDiag_files (c : Diag) (s : State) : (raiseDiag c s).files = s.files := rfl
@[simp] theorem raiseDiag_storePos (c : Diag) (s : State) : (raiseDiag c s).storePos = s.storePos := rfl
@[simp] theorem raiseDiag_draws (c : Diag) (s : State) : (raiseDiag c s).draws = s.draws := rfl
@[simp] theorem raiseDiag_drawCnt (c : Diag) (s : State) : (raiseDiag c s).drawCnt = s.drawCnt := rfl
@[simp] theorem raiseDiag_statusOut (c : Diag) (s : State) : (raiseDiag c s).statusOut = s.statusOut := rfl
@[simp] theorem raiseDiag_turns (c : Diag) (s : State) : (raiseDiag c s).turns = s.turns := rfl

/-! ## finish -/

@[simp] theorem finish_params (s : State) : (finish s).params = s.params := rfl
@[simp] theorem finish_engState (s : State) : (finish s).engState = .awaitFrame := rfl
@[simp] theorem finish_fbCnt (s : State) : (finish s).fbCnt = 0 := rfl
@[simp] theorem finish_fb (s : State) : (finish s).fb = s.fb := rfl
@[simp] theorem finish_tbCnt (s : State) : (finish s).tbCnt = s.tbCnt := rfl
@[simp] theorem finish_tb (s : State) : (finish s).tb = s.tb := rfl
@[simp] theorem finish_cmdDrv (s : State) : (finish s).cmdDrv = s.cmdDrv := rfl
@[simp] theorem finish_cmdTrk (s : State) : (finish s).cmdTrk = s.cmdTrk := rfl
@[simp] theorem finish_cmdLen (s : State) : (finish s).cmdLen = s.cmdLen := rfl
@[simp] theorem finish_dt (s : State) : (finish s).dt = s.dt := rfl
@[simp] theorem finish_statCnt (s : State) : (finish s).statCnt = s.statCnt := rfl
@[simp] theorem finish_readCnt (s : State) : (finish s).readCnt = s.readCnt := rfl
@[simp] theorem finish_writCnt (s : State) : (finish s).writCnt = s.writCnt := rfl
@[simp] theorem finish_errCnt (s : State) : (finish s).errCnt = s.errCnt := rfl
@[simp] theorem finish_lastErr (s : State) : (finish s).lastErr = s.lastErr := rfl
@[simp] theorem finish_opPend (s : State) : (finish s).opPend = s.opPend := rfl
@[simp] theorem finish_rx (s : State) : (finish s).rx = s.rx := rfl
@[simp] theorem finish_tx (s : State) : (finish s).tx = s.tx := rfl
@[simp] theorem finish_linkOpen (s : State) : (finish s).linkOpen = s.linkOpen := rfl
@[simp] theorem finish_files (s : State) : (finish s).files = s.files := rfl
@[simp] theorem finish_storePos (s : State) : (finish s).storePos = s.storePos := rfl
@[simp] theorem finish_draws (s : State) : (finish s).draws = s.draws := rfl
@[simp] theorem finish_drawCnt (s : State) : (finish s).drawCnt = s.drawCnt := rfl
@[simp] theorem finish_statusOut (s : State) : (finish s).statusOut = s.statusOut := rfl
@[simp] theorem finish_turns (s : State) : (finish s).turns = s.turns := rfl

/-! ## emit -/

@[simp] theorem emit_params (b : List Byte) (s : State) : (emit b s).params = s.params := rfl
@[simp] theorem emit_engState (b : List Byte) (s : State) : (emit b s).engState = s.engState := rfl
@[simp] theorem emit_fbCnt (b : List Byte) (s : State) : (emit b s).fbCnt = s.fbCnt := rfl
@[simp] theorem emit_fb (b : List Byte) (s : State) : (emit b s).fb = s.fb := rfl
@[simp] theorem emit_tbCnt (b : List Byte) (s : State) : (emit b s).tbCnt = s.tbCnt := rfl
@[simp] theorem emit_tb (b : List Byte) (s : State) : (emit b s).tb = s.tb := rfl
@[simp] theorem emit_cmdDrv (b : List Byte) (s : State) : (emit b s).cmdDrv = s.cmdDrv := rfl
@[simp] theorem emit_cmdTrk (b : List Byte) (s : State) : (emit b s).cmdTrk = s.cmdTrk := rfl
@[simp] theorem emit_cmdLen (b : List Byte) (s : State) : (emit b s).cmdLen = s.cmdLen := rfl
@[simp] theorem emit_dt (b : List Byte) (s : State) : (emit b s).dt = s.dt := rfl
@[simp] theorem emit_statCnt (b : List Byte) (s : State) : (emit b s).statCnt = s.statCnt := rfl
@[simp] theorem emit_readCnt (b : List Byte) (s : State) : (emit b s).readCnt = s.readCnt := rfl
@[simp] theorem emit_writCnt (b : List Byte) (s : State) : (emit b s).writCnt = s.writCnt := rfl
@[simp] theorem emit_errCnt (b : List Byte) (s : State) : (emit b s).errCnt = s.errCnt := rfl
@[simp] theorem emit_lastErr (b : List Byte) (s : State) : (emit b s).lastErr = s.lastErr := rfl
@[simp] theorem emit_opPend (b : List Byte) (s : State) : (emit b s).opPend = s.opPend := rfl
@[simp] theorem emit_rx (b : List Byte) (s : State) : (emit b s).rx = s.rx := rfl
@[simp] theorem emit_tx (b : List Byte) (s : State) : (emit b s).tx = s.tx ++ b := rfl
@[simp] theorem emit_linkOpen (b : List Byte) (s : State) : (emit b s).linkOpen = s.linkOpen := rfl
@[simp] theorem emit_files (b : List Byte) (s : State) : (emit b s).files = s.files := rfl
@[simp] theorem emit_storePos (b : List Byte) (s : State) : (emit b s).storePos = s.storePos := rfl
@[simp] theorem emit_draws (b : List Byte) (s : State) : (emit b s).draws = s.draws := rfl
@[simp] theorem emit_drawCnt (b : List Byte) (s : State) : (emit b s).drawCnt = s.drawCnt := rfl
@[simp] theorem emit_statusOut (b : List Byte) (s : State) : (emit b s).statusOut = s.statusOut := rfl
@[simp] theorem emit_turns (b : List Byte) (s : State) : (emit b s).turns = s.turns := rfl

/-! ## bumpStat -/

@[simp] theorem bumpStat_params (s : State) : (s.bumpStat).params = s.params := rfl
@[simp] theorem bumpStat_engState (s : State) : (s.bumpStat).engState = s.engState := rfl
@[simp] theorem bumpStat_fbCnt (s : State) : (s.bumpStat).fbCnt = s.fbCnt := rfl
@[simp] theorem bumpStat_fb (s : State) : (s.bumpStat).fb = s.fb := rfl
@[simp] theorem bumpStat_tbCnt (s : State) : (s.bumpStat).tbCnt = s.tbCnt := rfl
@[simp] theorem bumpStat_tb (s : State) : (s.bumpStat).tb = s.tb := rfl
@[simp] theorem bumpStat_cmdDrv (s : State) : (s.bumpStat).cmdDrv = s.cmdDrv := rfl
@[simp] theorem bumpStat_cmdTrk (s : State) : (s.bumpStat).cmdTrk = s.cmdTrk := rfl
@[simp] theorem bumpStat_cmdLen (s : State) : (s.bumpStat).cmdLen = s.cmdLen := rfl
@[simp] theorem bumpStat_dt (s : State) : (s.bumpStat).dt = s.dt := rfl
@[simp] theorem bumpStat_statCnt (s : State) : (s.bumpStat).statCnt = ctrInc s.params s.statCnt := rfl
@[simp] theorem bumpStat_readCnt (s : State) : (s.bumpStat).readCnt = s.readCnt := rfl
@[simp] theorem bumpStat_writCnt (s : State) : (s.bumpStat).writCnt = s.writCnt := rfl
@[simp] theorem bumpStat_errCnt (s : State) : (s.bumpStat).errCnt = s.errCnt := rfl
@[simp] theorem bumpStat_lastErr (s : State) : (s.bumpStat).lastErr = s.lastErr := rfl
@[simp] theorem bumpStat_opPend (s : State) : (s.bumpStat).opPend = s.opPend := rfl
@[simp] theorem bumpStat_rx (s : State) : (s.bumpStat).rx = s.rx := rfl
@[simp] theorem bumpStat_tx (s : State) : (s.bumpStat).tx = s.tx := rfl
@[simp] theorem bumpStat_linkOpen (s : State) : (s.bumpStat).linkOpen = s.linkOpen := rfl
@[simp] theorem bumpStat_files (s : State) : (s.bumpStat).files = s.files := rfl
@[simp] theorem bumpStat_storePos (s : State) : (s.bumpStat).storePos = s.storePos := rfl
@[simp] theorem bumpStat_draws (s : State) : (s.bumpStat).draws = s.draws := rfl
@[simp] theorem bumpStat_drawCnt (s : State) : (s.bumpStat).drawCnt = s.drawCnt := rfl
@[simp] theorem bumpStat_statusOut (s : State) : (s.bumpStat).statusOut = s.statusOut := rfl
@[simp] theorem bumpStat_turns (s : State) : (s.bumpStat).turns = s.turns := rfl

/-! ## bumpRead -/

@[simp] theorem bumpRead_params (s : State) : (s.bumpRead).params = s.params := rfl
@[simp] theorem bumpRead_engState (s : State) : (s.bumpRead).engState = s.engState := rfl
@[simp] theorem bumpRead_fbCnt (s : State) : (s.bumpRead).fbCnt = s.fbCnt := rfl
@[simp] theorem bumpRead_fb (s : State) : (s.bumpRead).fb = s.fb := rfl
@[simp] theorem bumpRead_tbCnt (s : State) : (s.bumpRead).tbCnt = s.tbCnt := rfl
@[simp] theorem bumpRead_tb (s : State) : (s.bumpRead).tb = s.tb := rfl
@[simp] theorem bumpRead_cmdDrv (s : State) : (s.bumpRead).cmdDrv = s.cmdDrv := rfl
@[simp] theorem bumpRead_cmdTrk (s : State) : (s.bumpRead).cmdTrk = s.cmdTrk := rfl
@[simp] theorem bumpRead_cmdLen (s : State) : (s.bumpRead).cmdLen = s.cmdLen := rfl
@[simp] theorem bumpRead_dt (s : State) : (s.bumpRead).dt = s.dt := rfl
@[simp] theorem bumpRead_statCnt (s : State) : (s.bumpRead).statCnt = s.statCnt := rfl
@[simp] theorem bumpRead_readCnt (s : State) : (s.bumpRead).readCnt = ctrInc s.params s.readCnt := rfl
@[simp] theorem bumpRead_writCnt (s : State) : (s.bumpRead).writCnt = s.writCnt := rfl
@[simp] theorem bumpRead_errCnt (s : State) : (s.bumpRead).errCnt = s.errCnt := rfl
@[simp] theorem bumpRead_lastErr (s : State) : (s.bumpRead).lastErr = s.lastErr := rfl
@[simp] theorem bumpRead_opPend (s : State) : (s.bumpRead).opPend = s.opPend := rfl
@[simp] theorem bumpRead_rx (s : State) : (s.bumpRead).rx = s.rx := rfl
@[simp] theorem bumpRead_tx (s : State) : (s.bumpRead).tx = s.tx := rfl
@[simp] theorem bumpRead_linkOpen (s : State) : (s.bumpRead).linkOpen = s.linkOpen := rfl
@[simp] theorem bumpRead_files (s : State) : (s.bumpRead).files = s.files := rfl
@[simp] theorem bumpRead_storePos (s : State) : (s.bumpRead).storePos = s.storePos := rfl
@[simp] theorem bumpRead_draws (s : State) : (s.bumpRead).draws = s.draws := rfl
@[simp] theorem bumpRead_drawCnt (s : State) : (s.bumpRead).drawCnt = s.drawCnt := rfl
@[simp] theorem bumpRead_statusOut (s : State) : (s.bumpRead).statusOut = s.statusOut := rfl
@[simp] theorem bumpRead_turns (s : State) : (s.bumpRead).turns = s.turns := rfl

/-! ## bumpWrit -/

@[simp] theorem bumpWrit_params (s : State) : (s.bumpWrit).params = s.params := rfl
@[simp] theorem bumpWrit_engState (s : State) : (s.bumpWrit).engState = s.engState := rfl
@[simp] theorem bumpWrit_fbCnt (s : State) : (s.bumpWrit).fbCnt = s.fbCnt := rfl
@[simp] theorem bumpWrit_fb (s : State) : (s.bumpWrit).fb = s.fb := rfl
@[simp] theorem bumpWrit_tbCnt (s : State) : (s.bumpWrit).tbCnt = s.tbCnt := rfl
@[simp] theorem bumpWrit_tb (s : State) : (s.bumpWrit).tb = s.tb := rfl
@[simp] theorem bumpWrit_cmdDrv (s : State) : (s.bumpWrit).cmdDrv = s.cmdDrv := rfl
@[simp] theorem bumpWrit_cmdTrk (s : State) : (s.bumpWrit).cmdTrk = s.cmdTrk := rfl
@[simp] theorem bumpWrit_cmdLen (s : State) : (s.bumpWrit).cmdLen = s.cmdLen := rfl
@[simp] theorem bumpWrit_dt (s : State) : (s.bumpWrit).dt = s.dt := rfl
@[simp] theorem bumpWrit_statCnt (s : State) : (s.bumpWrit).statCnt = s.statCnt := rfl
@[simp] theorem bumpWrit_readCnt (s : State) : (s.bumpWrit).readCnt = s.readCnt := rfl
@[simp] theorem bumpWrit_writCnt (s : State) : (s.bumpWrit).writCnt = ctrInc s.params s.writCnt := rfl
@[simp] theorem bumpWrit_errCnt (s : State) : (s.bumpWrit).errCnt = s.errCnt := rfl
@[simp] theorem bumpWrit_lastErr (s : State) : (s.bumpWrit).lastErr = s.lastErr := rfl
@[simp] theorem bumpWrit_opPend (s : State) : (s.bumpWrit).opPend = s.opPend := rfl
@[simp] theorem bumpWrit_rx (s : State) : (s.bumpWrit).rx = s.rx := rfl
@[simp] theorem bumpWrit_tx (s : State) : (s.bumpWrit).tx = s.tx := rfl
@[simp] theorem bumpWrit_linkOpen (s : State) : (s.bumpWrit).linkOpen = s.linkOpen := rfl
@[simp] theorem bumpWrit_files (s : State) : (s.bumpWrit).files = s.files := rfl
@[simp] theorem bumpWrit_storePos (s : State) : (s.bumpWrit).storePos = s.storePos := rfl
@[simp] theorem bumpWrit_draws (s : State) : (s.bumpWrit).draws = s.draws := rfl
@[simp] theorem bumpWrit_drawCnt (s : State) : (s.bumpWrit).drawCnt = s.drawCnt := rfl
@[simp] theorem bumpWrit_statusOut (s : State) : (s.bumpWrit).statusOut = s.statusOut := rfl
@[simp] theorem bumpWrit_turns (s : State) : (s.bumpWrit).turns = s.turns := rfl

/-! ## select -/

@[simp] theorem select_params (d : Nat) (h : Bool) (s : State) : (s.select d h).params = s.params := rfl
@[simp] theorem select_engState (d : Nat) (h : Bool) (s : State) : (s.select d h).engState = s.engState := rfl
@[simp] theorem select_fbCnt (d : Nat) (h : Bool) (s : State) : (s.select d h).fbCnt = s.fbCnt := rfl
@[simp] theorem select_fb (d : Nat) (h : Bool) (s : State) : (s.select d h).fb = s.fb := rfl
@[simp] theorem select_tbCnt (d : Nat) (h : Bool) (s : State) : (s.select d h).tbCnt = s.tbCnt := rfl
@[simp] theorem select_tb (d : Nat) (h : Bool) (s : State) : (s.select d h).tb = s.tb := rfl
@[simp] theorem select_cmdDrv (d : Nat) (h : Bool) (s : State) : (s.select d h).cmdDrv = s.cmdDrv := rfl
@[simp] theorem select_cmdTrk (d : Nat) (h : Bool) (s : State) : (s.select d h).cmdTrk = s.cmdTrk := rfl
@[simp] theorem select_cmdLen (d : Nat) (h : Bool) (s : State) : (s.select d h).cmdLen = s.cmdLen := rfl
@[simp] theorem select_dt (d : Nat) (h : Bool) (s : State) : (s.select d h).dt = selectDrive d h s.dt := rfl
@[simp] theorem select_statCnt (d : Nat) (h : Bool) (s : State) : (s.select d h).statCnt = s.statCnt := rfl
@[simp] theorem select_readCnt (d : Nat) (h : Bool) (s : State) : (s.select d h).readCnt = s.readCnt := rfl
@[simp] theorem select_writCnt (d : Nat) (h : Bool) (s : State) : (s.select d h).writCnt = s.writCnt := rfl
@[simp] theorem select_errCnt (d : Nat) (h : Bool) (s : State) : (s.select d h).errCnt = s.errCnt := rfl
@[simp] theorem select_lastErr (d : Nat) (h : Bool) (s : State) : (s.select d h).lastErr = s.lastErr := rfl
@[simp] theorem select_opPend (d : Nat) (h : Bool) (s : State) : (s.select d h).opPend = s.opPend := rfl
@[simp] theorem select_rx (d : Nat) (h : Bool) (s : State) : (s.select d h).rx = s.rx := rfl
@[simp] theorem select_tx (d : Nat) (h : Bool) (s : State) : (s.select d h).tx = s.tx := rfl
@[simp] theorem select_linkOpen (d : Nat) (h : Bool) (s : State) : (s.select d h).linkOpen = s.linkOpen := rfl
@[simp] theorem select_files (d : Nat) (h : Bool) (s : State) : (s.select d h).files = s.files := rfl
@[simp] theorem select_storePos (d : Nat) (h : Bool) (s : State) : (s.select d h).storePos = s.storePos := rfl
@[simp] theorem select_draws (d : Nat) (h : Bool) (s : State) : (s.select d h).draws = s.draws := rfl
@[simp] theorem select_drawCnt (d : Nat) (h : Bool) (s : State) : (s.select d h).drawCnt = s.drawCnt := rfl
@[simp] theorem select_statusOut (d : Nat) (h : Bool) (s : State) : (s.select d h).statusOut = s.statusOut := rfl
@[simp] theorem select_turns (d : Nat) (h : Bool) (s : State) : (s.select d h).turns = s.turns := rfl

/-! ## setCurTrack -/

@[simp] theorem setCurTrack_params (d : Nat) (t : U16) (s : State) : (s.setCurTrack d t).params = s.params := rfl
@[simp] theorem setCurTrack_engState (d : Nat) (t : U16) (s : State) : (s.setCurTrack d t).engState = s.engState := rfl
@[simp] theorem setCurTrack_fbCnt (d : Nat) (t : U16) (s : State) : (s.setCurTrack d t).fbCnt = s.fbCnt := rfl
@[simp] theorem setCurTrack_fb (d : Nat) (t : U16) (s : State) : (s.setCurTrack d t).fb = s.fb := rfl
@[simp] theorem setCurTrack_tbCnt (d : Nat) (t : U16) (s : State) : (s.setCurTrack d t).tbCnt = s.tbCnt := rfl
@[simp] theorem setCurTrack_tb (d : Nat) (t : U16) (s : State) : (s.setCurTrack d t).tb = s.tb := rfl
@[simp] theorem setCurTrack_cmdDrv (d : Nat) (t : U16) (s : State) : (s.setCurTrack d t).cmdDrv = s.cmdDrv := rfl
@[simp] theorem setCurTrack_cmdTrk (d : Nat) (t : U16) (s : State) : (s.setCurTrack d t).cmdTrk = s.cmdTrk := rfl
@[simp] theorem setCurTrack_cmdLen (d : Nat) (t : U16) (s : State) : (s.setCurTrack d t).cmdLen = s.cmdLen := rfl
@[simp] theorem setCurTrack_dt (d : Nat) (t : U16) (s : State) : (s.setCurTrack d t).dt = s.dt.modify d fun x => { x with curTrack := t } := rfl
@[simp] theorem setCurTrack_statCnt (d : Nat) (t : U16) (s : State) : (s.setCurTrack d t).statCnt = s.statCnt := rfl
@[simp] theorem setCurTrack_readCnt (d : Nat) (t : U16) (s : State) : (s.setCurTrack d t).readCnt = s.readCnt := rfl
@[simp] theorem setCurTrack_writCnt (d : Nat) (t : U16) (s : State) : (s.setCurTrack d t).writCnt = s.writCnt := rfl
@[simp] theorem setCurTrack_errCnt (d : Nat) (t : U16) (s : State) : (s.setCurTrack d t).errCnt = s.errCnt := rfl
@[simp] theorem setCurTrack_lastErr (d : Nat) (t : U16) (s : State) : (s.setCurTrack d t).lastErr = s.lastErr := rfl
@[simp] theorem setCurTrack_opPend (d : Nat) (t : U16) (s : State) : (s.setCurTrack d t).opPend = s.opPend := rfl
@[simp] theorem setCurTrack_rx (d : Nat) (t : U16) (s : State) : (s.setCurTrack d t).rx = s.rx := rfl
@[simp] theorem setCurTrack_tx (d : Nat) (t : U16) (s : State) : (s.setCurTrack d t).tx = s.tx := rfl
@[simp] theorem setCurTrack_linkOpen (d : Nat) (t : U16) (s : State) : (s.setCurTrack d t).linkOpen = s.linkOpen := rfl
@[simp] theorem setCurTrack_files (d : Nat) (t : U16) (s : State) : (s.setCurTrack d t).files = s.files := rfl
@[simp] theorem setCurTrack_storePos (d : Nat) (t : U16) (s : State) : (s.setCurTrack d t).storePos = s.storePos := rfl
@[simp] theorem setCurTrack_draws (d : Nat) (t : U16) (s : State) : (s.setCurTrack d t).draws = s.draws := rfl
@[simp] theorem setCurTrack_drawCnt (d : Nat) (t : U16) (s : State) : (s.setCurTrack d t).drawCnt = s.drawCnt := rfl
@[simp] theorem setCurTrack_statusOut (d : Nat) (t : U16) (s : State) : (s.setCurTrack d t).statusOut = s.statusOut := rfl
@[simp] theorem setCurTrack_turns (d : Nat) (t : U16) (s : State) : (s.setCurTrack d t).turns = s.turns := rfl

/-! ## latch -/

@[simp] theorem latch_params (d : BitVec 4) (t : BitVec 12) (l : U16) (s : State) : (s.latch d t l).params = s.params := rfl
@[simp] theorem latch_engState (d : BitVec 4) (t : BitVec 12) (l : U16) (s : State) : (s.latch d t l).engState = s.engState := rfl
@[simp] theorem latch_fbCnt (d : BitVec 4) (t : BitVec 12) (l : U16) (s : State) : (s.latch d t l).fbCnt = s.fbCnt := rfl
@[simp] theorem latch_fb (d : BitVec 4) (t : BitVec 12) (l : U16) (s : State) : (s.latch d t l).fb = s.fb := rfl
@[simp] theorem latch_tbCnt (d : BitVec 4) (t : BitVec 12) (l : U16) (s : State) : (s.latch d t l).tbCnt = s.tbCnt := rfl
@[simp] theorem latch_tb (d : BitVec 4) (t : BitVec 12) (l : U16) (s : State) : (s.latch d t l).tb = s.tb := rfl
@[simp] theorem latch_cmdDrv (d : BitVec 4) (t : BitVec 12) (l : U16) (s : State) : (s.latch d t l).cmdDrv = d := rfl
@[simp] theorem latch_cmdTrk (d : BitVec 4) (t : BitVec 12) (l : U16) (s : State) : (s.latch d t l).cmdTrk = t := rfl
@[simp] theorem latch_cmdLen (d : BitVec 4) (t : BitVec 12) (l : U16) (s : State) : (s.latch d t l).cmdLen = l := rfl
@[simp] theorem latch_dt (d : BitVec 4) (t : BitVec 12) (l : U16) (s : State) : (s.latch d t l).dt = s.dt := rfl
@[simp] theorem latch_statCnt (d : BitVec 4) (t : BitVec 12) (l : U16) (s : State) : (s.latch d t l).statCnt = s.statCnt := rfl
@[simp] theorem latch_readCnt (d : BitVec 4) (t : BitVec 12) (l : U16) (s : State) : (s.latch d t l).readCnt = s.readCnt := rfl
@[simp] theorem latch_writCnt (d : BitVec 4) (t : BitVec 12) (l : U16) (s : State) : (s.latch d t l).writCnt = s.writCnt := rfl
@[simp] theorem latch_errCnt (d : BitVec 4) (t : BitVec 12) (l : U16) (s : State) : (s.latch d t l).errCnt = s.errCnt := rfl
@[simp] theorem latch_lastErr (d : BitVec 4) (t : BitVec 12) (l : U16) (s : State) : (s.latch d t l).lastErr = s.lastErr := rfl
@[simp] theorem latch_opPend (d : BitVec 4) (t : BitVec 12) (l : U16) (s : State) : (s.latch d t l).opPend = s.opPend := rfl
@[simp] theorem latch_rx (d : BitVec 4) (t : BitVec 12) (l : U16) (s : State) : (s.latch d t l).rx = s.rx := rfl
@[simp] theorem latch_tx (d : BitVec 4) (t : BitVec 12) (l : U16) (s : State) : (s.latch d t l).tx = s.tx := rfl
@[simp] theorem latch_linkOpen (d : BitVec 4) (t : BitVec 12) (l : U16) (s : State) : (s.latch d t l).linkOpen = s.linkOpen := rfl
@[simp] theorem latch_files (d : BitVec 4) (t : BitVec 12) (l : U16) (s : State) : (s.latch d t l).files = s.files := rfl
@[simp] theorem latch_storePos (d : BitVec 4) (t : BitVec 12) (l : U16) (s : State) : (s.latch d t l).storePos = s.storePos := rfl
@[simp] theorem latch_draws (d : BitVec 4) (t : BitVec 12) (l : U16) (s : State) : (s.latch d t l).draws = s.draws := rfl
@[simp] theorem latch_drawCnt (d : BitVec 4) (t : BitVec 12) (l : U16) (s : State) : (s.latch d t l).drawCnt = s.drawCnt := rfl
@[simp] theorem latch_statusOut (d : BitVec 4) (t : BitVec 12) (l : U16) (s : State) : (s.latch d t l).statusOut = s.statusOut := rfl
@[simp] theorem latch_turns (d : BitVec 4) (t : BitVec 12) (l : U16) (s : State) : (s.latch d t l).turns = s.turns := rfl

/-! ## setPos -/

@[simp] theorem setPos_params (d p : Nat) (s : State) : (s.setPos d p).params = s.params := rfl
@[simp] theorem setPos_engState (d p : Nat) (s : State) : (s.setPos d p).engState = s.engState := rfl
@[simp] theorem setPos_fbCnt (d p : Nat) (s : State) : (s.setPos d p).fbCnt = s.fbCnt := rfl
@[simp] theorem setPos_fb (d p : Nat) (s : State) : (s.setPos d p).fb = s.fb := rfl
@[simp] theorem setPos_tbCnt (d p : Nat) (s : State) : (s.setPos d p).tbCnt = s.tbCnt := rfl
@[simp] theorem setPos_tb (d p : Nat) (s : State) : (s.setPos d p).tb = s.tb := rfl
@[simp] theorem setPos_cmdDrv (d p : Nat) (s : State) : (s.setPos d p).cmdDrv = s.cmdDrv := rfl
@[simp] theorem setPos_cmdTrk (d p : Nat) (s : State) : (s.setPos d p).cmdTrk = s.cmdTrk := rfl
@[simp] theorem setPos_cmdLen (d p : Nat) (s : State) : (s.setPos d p).cmdLen = s.cmdLen := rfl
@[simp] theorem setPos_dt (d p : Nat) (s : State) : (s.setPos d p).dt = s.dt := rfl
@[simp] theorem setPos_statCnt (d p : Nat) (s : State) : (s.setPos d p).statCnt = s.statCnt := rfl
@[simp] theorem setPos_readCnt (d p : Nat) (s : State) : (s.setPos d p).readCnt = s.readCnt := rfl
@[simp] theorem setPos_writCnt (d p : Nat) (s : State) : (s.setPos d p).writCnt = s.writCnt := rfl
@[simp] theorem setPos_errCnt (d p : Nat) (s : State) : (s.setPos d p).errCnt = s.errCnt := rfl
@[simp] theorem setPos_lastErr (d p : Nat) (s : State) : (s.setPos d p).lastErr = s.lastErr := rfl
@[simp] theorem setPos_opPend (d p : Nat) (s : State) : (s.setPos d p).opPend = s.opPend := rfl
@[simp] theorem setPos_rx (d p : Nat) (s : State) : (s.setPos d p).rx = s.rx := rfl
@[simp] theorem setPos_tx (d p : Nat) (s : State) : (s.setPos d p).tx = s.tx := rfl
@[simp] theorem setPos_linkOpen (d p : Nat) (s : State) : (s.setPos d p).linkOpen = s.linkOpen := rfl
@[simp] theorem setPos_files (d p : Nat) (s : State) : (s.setPos d p).files = s.files := rfl
@[simp] theorem setPos_storePos (d p : Nat) (s : State) : (s.setPos d p).storePos = s.storePos.set d p := rfl
@[simp] theorem setPos_draws (d p : Nat) (s : State) : (s.setPos d p).draws = s.draws := rfl
@[simp] theorem setPos_drawCnt (d p : Nat) (s : State) : (s.setPos d p).drawCnt = s.drawCnt := rfl
@[simp] theorem setPos_statusOut (d p : Nat) (s : State) : (s.setPos d p).statusOut = s.statusOut := rfl
@[simp] theorem setPos_turns (d p : Nat) (s : State) : (s.setPos d p).turns = s.turns := rfl

/-! ## setFile -/

@[simp] theorem setFile_params (h : Handle) (f : File) (s : State) : (s.setFile h f).params = s.params := rfl
@[simp] theorem setFile_engState (h : Handle) (f : File) (s : State) : (s.setFile h f).engState = s.engState := rfl
@[simp] theorem setFile_fbCnt (h : Handle) (f : File) (s : State) : (s.setFile h f).fbCnt = s.fbCnt := rfl
@[simp] theorem setFile_fb (h : Handle) (f : File) (s : State) : (s.setFile h f).fb = s.fb := rfl
@[simp] theorem setFile_tbCnt (h : Handle) (f : File) (s : State) : (s.setFile h f).tbCnt = s.tbCnt := rfl
@[simp] theorem setFile_tb (h : Handle) (f : File) (s : State) : (s.setFile h f).tb = s.tb := rfl
@[simp] theorem setFile_cmdDrv (h : Handle) (f : File) (s : State) : (s.setFile h f).cmdDrv = s.cmdDrv := rfl
@[simp] theorem setFile_cmdTrk (h : Handle) (f : File) (s : State) : (s.setFile h f).cmdTrk = s.cmdTrk := rfl
@[simp] theorem setFile_cmdLen (h : Handle) (f : File) (s : State) : (s.setFile h f).cmdLen = s.cmdLen := rfl
@[simp] theorem setFile_dt (h : Handle) (f : File) (s : State) : (s.setFile h f).dt = s.dt := rfl
@[simp] theorem setFile_statCnt (h : Handle) (f : File) (s : State) : (s.setFile h f).statCnt = s.statCnt := rfl
@[simp] theorem setFile_readCnt (h : Handle) (f : File) (s : State) : (s.setFile h f).readCnt = s.readCnt := rfl
@[simp] theorem setFile_writCnt (h : Handle) (f : File) (s : State) : (s.setFile h f).writCnt = s.writCnt := rfl
@[simp] theorem setFile_errCnt (h : Handle) (f : File) (s : State) : (s.setFile h f).errCnt = s.errCnt := rfl
@[simp] theorem setFile_lastErr (h : Handle) (f : File) (s : State) : (s.setFile h f).lastErr = s.lastErr := rfl
@[simp] theorem setFile_opPend (h : Handle) (f : File) (s : State) : (s.setFile h f).opPend = s.opPend := rfl
@[simp] theorem setFile_rx (h : Handle) (f : File) (s : State) : (s.setFile h f).rx = s.rx := rfl
@[simp] theorem setFile_tx (h : Handle) (f : File) (s : State) : (s.setFile h f).tx = s.tx := rfl
@[simp] theorem setFile_linkOpen (h : Handle) (f : File) (s : State) : (s.setFile h f).linkOpen = s.linkOpen := rfl
@[simp] theorem setFile_files (h : Handle) (f : File) (s : State) : (s.setFile h f).files = kvPut s.files h f := rfl
@[simp] theorem setFile_storePos (h : Handle) (f : File) (s : State) : (s.setFile h f).storePos = s.storePos := rfl
@[simp] theorem setFile_draws (h : Handle) (f : File) (s : State) : (s.setFile h f).draws = s.draws := rfl
@[simp] theorem setFile_drawCnt (h : Handle) (f : File) (s : State) : (s.setFile h f).drawCnt = s.drawCnt := rfl
@[simp] theorem setFile_statusOut (h : Handle) (f : File) (s : State) : (s.setFile h f).statusOut = s.statusOut := rfl
@[simp] theorem setFile_turns (h : Handle) (f : File) (s : State) : (s.setFile h f).turns = s.turns := rfl

/-! ## A store answer -/

@[simp] theorem dropDraw_params (s : State) : s.dropDraw.params = s.params := by unfold State.dropDraw; split <;> rfl
@[simp] theorem dropDraw_engState (s : State) : s.dropDraw.engState = s.engState := by unfold State.dropDraw; split <;> rfl
@[simp] theorem dropDraw_fbCnt (s : State) : s.dropDraw.fbCnt = s.fbCnt := by unfold State.dropDraw; split <;> rfl
@[simp] theorem dropDraw_fb (s : State) : s.dropDraw.fb = s.fb := by unfold State.dropDraw; split <;> rfl
@[simp] theorem dropDraw_tbCnt (s : State) : s.dropDraw.tbCnt = s.tbCnt := by unfold State.dropDraw; split <;> rfl
@[simp] theorem dropDraw_tb (s : State) : s.dropDraw.tb = s.tb := by unfold State.dropDraw; split <;> rfl
@[simp] theorem dropDraw_cmdDrv (s : State) : s.dropDraw.cmdDrv = s.cmdDrv := by unfold State.dropDraw; split <;> rfl
@[simp] theorem dropDraw_cmdTrk (s : State) : s.dropDraw.cmdTrk = s.cmdTrk := by unfold State.dropDraw; split <;> rfl
@[simp] theorem dropDraw_cmdLen (s : State) : s.dropDraw.cmdLen = s.cmdLen := by unfold State.dropDraw; split <;> rfl
@[simp] theorem dropDraw_dt (s : State) : s.dropDraw.dt = s.dt := by unfold State.dropDraw; split <;> rfl
@[simp] theorem dropDraw_statCnt (s : State) : s.dropDraw.statCnt = s.statCnt := by unfold State.dropDraw; split <;> rfl
@[simp] theorem dropDraw_readCnt (s : State) : s.dropDraw.readCnt = s.readCnt := by unfold State.dropDraw; split <;> rfl
@[simp] theorem dropDraw_writCnt (s : State) : s.dropDraw.writCnt = s.writCnt := by unfold State.dropDraw; split <;> rfl
@[simp] theorem dropDraw_errCnt (s : State) : s.dropDraw.errCnt = s.errCnt := by unfold State.dropDraw; split <;> rfl
@[simp] theorem dropDraw_lastErr (s : State) : s.dropDraw.lastErr = s.lastErr := by unfold State.dropDraw; split <;> rfl
@[simp] theorem dropDraw_opPend (s : State) : s.dropDraw.opPend = s.opPend := by unfold State.dropDraw; split <;> rfl
@[simp] theorem dropDraw_rx (s : State) : s.dropDraw.rx = s.rx := by unfold State.dropDraw; split <;> rfl
@[simp] theorem dropDraw_tx (s : State) : s.dropDraw.tx = s.tx := by unfold State.dropDraw; split <;> rfl
@[simp] theorem dropDraw_linkOpen (s : State) : s.dropDraw.linkOpen = s.linkOpen := by unfold State.dropDraw; split <;> rfl
@[simp] theorem dropDraw_files (s : State) : s.dropDraw.files = s.files := by unfold State.dropDraw; split <;> rfl
@[simp] theorem dropDraw_storePos (s : State) : s.dropDraw.storePos = s.storePos := by unfold State.dropDraw; split <;> rfl
@[simp] theorem dropDraw_statusOut (s : State) : s.dropDraw.statusOut = s.statusOut := by unfold State.dropDraw; split <;> rfl
@[simp] theorem dropDraw_turns (s : State) : s.dropDraw.turns = s.turns := by unfold State.dropDraw; split <;> rfl

@[simp] theorem answered_params (s : State) : s.answered.params = s.params := by unfold State.answered; split <;> simp
@[simp] theorem answered_engState (s : State) : s.answered.engState = s.engState := by unfold State.answered; split <;> simp
@[simp] theorem answered_fbCnt (s : State) : s.answered.fbCnt = s.fbCnt := by unfold State.answered; split <;> simp
@[simp] theorem answered_fb (s : State) : s.answered.fb = s.fb := by unfold State.answered; split <;> simp
@[simp] theorem answered_tbCnt (s : State) : s.answered.tbCnt = s.tbCnt := by unfold State.answered; split <;> simp
@[simp] theorem answered_tb (s : State) : s.answered.tb = s.tb := by unfold State.answered; split <;> simp
@[simp] theorem answered_cmdDrv (s : State) : s.answered.cmdDrv = s.cmdDrv := by unfold State.answered; split <;> simp
@[simp] theorem answered_cmdTrk (s : State) : s.answered.cmdTrk = s.cmdTrk := by unfold State.answered; split <;> simp
@[simp] theorem answered_cmdLen (s : State) : s.answered.cmdLen = s.cmdLen := by unfold State.answered; split <;> simp
@[simp] theorem answered_dt (s : State) : s.answered.dt = s.dt := by unfold State.answered; split <;> simp
@[simp] theorem answered_statCnt (s : State) : s.answered.statCnt = s.statCnt := by unfold State.answered; split <;> simp
@[simp] theorem answered_readCnt (s : State) : s.answered.readCnt = s.readCnt := by unfold State.answered; split <;> simp
@[simp] theorem answered_writCnt (s : State) : s.answered.writCnt = s.writCnt := by unfold State.answered; split <;> simp
@[simp] theorem answered_errCnt (s : State) : s.answered.errCnt = s.errCnt := by unfold State.answered; split <;> simp
@[simp] theorem answered_lastErr (s : State) : s.answered.lastErr = s.lastErr := by unfold State.answered; split <;> simp
@[simp] theorem answered_opPend (s : State) : s.answered.opPend = s.opPend := by unfold State.answered; split <;> simp
@[simp] theorem answered_rx (s : State) : s.answered.rx = s.rx := by unfold State.answered; split <;> simp
@[simp] theorem answered_tx (s : State) : s.answered.tx = s.tx := by unfold State.answered; split <;> simp
@[simp] theorem answered_linkOpen (s : State) : s.answered.linkOpen = s.linkOpen := by unfold State.answered; split <;> simp
@[simp] theorem answered_files (s : State) : s.answered.files = s.files := by unfold State.answered; split <;> simp
@[simp] theorem answered_storePos (s : State) : s.answered.storePos = s.storePos := by unfold State.answered; split <;> simp
@[simp] theorem answered_statusOut (s : State) : s.answered.statusOut = s.statusOut := by unfold State.answered; split <;> simp
@[simp] theorem answered_turns (s : State) : s.answered.turns = s.turns := by unfold State.answered; split <;> simp

end Sys2Proof.Machine
end

