-- ==== Sys2Proof/Laws/Ops.lean ====
section
/-! SUPPORT. What the shared operations do, said once: to the slots, to the store, to the shape of a state; and what each
meaning can answer. -/

namespace Sys2Proof.Machine

/-! ## Slots -/

theorem getD_modify {α : Type} (l : List α) (i j : Nat) (f : α → α) (d : α) :
    (l.modify i f).getD j d = if i = j ∧ j < l.length then f (l.getD j d) else l.getD j d := by
  simp only [List.getD_eq_getElem?_getD, List.getElem?_modify]
  by_cases hj : j < l.length
  · by_cases hi : i = j <;> simp [hj, hi]
  · simp [hj]

theorem getD_map_clear (l : List Slot) (j : Nat) :
    (l.map clearFlags).getD j .empty = clearFlags (l.getD j .empty) := by
  simp only [List.getD_eq_getElem?_getD, List.getElem?_map]
  by_cases hj : j < l.length
  · simp [hj]
  · simp [hj]; rfl

@[simp] theorem length_selectDrive (d : Nat) (h : Bool) (dt : List Slot) : (selectDrive d h dt).length = dt.length := by
  simp [selectDrive]

/-- The selection update, slot by slot (R127). -/
theorem getD_selectDrive (d : Nat) (h : Bool) (dt : List Slot) (j : Nat) :
    (selectDrive d h dt).getD j .empty =
      if d = j ∧ j < dt.length then { dt.getD j .empty with enabled := true, headLoaded := h }
      else clearFlags (dt.getD j .empty) := by
  unfold selectDrive
  rw [getD_modify, getD_map_clear, List.length_map]
  split <;> rfl

theorem slot_congr {s t : State} (h : t.dt = s.dt) (j : Nat) : t.slot j = s.slot j := by unfold State.slot; rw [h]

theorem slot_select (d : Nat) (h : Bool) (s : State) (j : Nat) :
    (s.select d h).slot j =
      if d = j ∧ j < s.dt.length then { s.slot j with enabled := true, headLoaded := h } else clearFlags (s.slot j) :=
  getD_selectDrive d h s.dt j

theorem slot_setCurTrack (d : Nat) (t : U16) (s : State) (j : Nat) :
    (s.setCurTrack d t).slot j = if d = j ∧ j < s.dt.length then { s.slot j with curTrack := t } else s.slot j :=
  getD_modify s.dt d j _ .empty

@[simp] theorem slot_raiseDiag (c : Diag) (s : State) (j : Nat) : (raiseDiag c s).slot j = s.slot j := rfl

@[simp] theorem slot_finish (s : State) (j : Nat) : (finish s).slot j = s.slot j := rfl

@[simp] theorem slot_drop (c : Diag) (s : State) (j : Nat) : (drop c s).slot j = s.slot j := rfl

@[simp] theorem slot_emit (b : List Byte) (s : State) (j : Nat) : (emit b s).slot j = s.slot j := rfl

@[simp] theorem slot_bumpStat (s : State) (j : Nat) : s.bumpStat.slot j = s.slot j := rfl

@[simp] theorem slot_bumpRead (s : State) (j : Nat) : s.bumpRead.slot j = s.slot j := rfl

@[simp] theorem slot_bumpWrit (s : State) (j : Nat) : s.bumpWrit.slot j = s.slot j := rfl

@[simp] theorem slot_latch (d : BitVec 4) (t : BitVec 12) (l : U16) (s : State) (j : Nat) :
    (s.latch d t l).slot j = s.slot j := rfl

@[simp] theorem slot_setPos (d p : Nat) (s : State) (j : Nat) : (s.setPos d p).slot j = s.slot j := rfl

@[simp] theorem slot_setFile (h : Handle) (f : File) (s : State) (j : Nat) : (s.setFile h f).slot j = s.slot j := rfl

@[simp] theorem slot_dropDraw (s : State) (j : Nat) : s.dropDraw.slot j = s.slot j := slot_congr (by simp) j

@[simp] theorem slot_answered (s : State) (j : Nat) : s.answered.slot j = s.slot j := slot_congr (by simp) j

/-! ## The map of mounted drives -/

theorem testBit_mountBits (l : List Slot) (i : Nat) :
    (mountBits l).testBit i = (l.getD i .empty).mounted := by
  induction l generalizing i with
  | nil => simp [mountBits, Slot.empty]
  | cons x l ih =>
    cases i with
    | zero => cases h : x.mounted <;> simp [mountBits, Nat.testBit_zero, h]
    | succ i =>
      rw [List.getD_cons_succ, ← ih, Nat.testBit_succ]
      congr 1
      cases h : x.mounted <;> simp [mountBits, h]; omega

/-- R78, R154: bit `i` of the map. -/
theorem getLsbD_mountMap (s : State) {i : Nat} (hi : i < 16) :
    s.mountMap.getLsbD i = (decide (i < s.params.nDrives) && (s.slot i).mounted) := by
  unfold State.mountMap
  rw [BitVec.getLsbD_ofNat, testBit_mountBits]
  simp only [hi, decide_true, Bool.true_and, State.slot, List.getD_eq_getElem?_getD, List.getElem?_take]
  by_cases h : i < s.params.nDrives <;> simp [h, Slot.empty]

/-! ## The store -/

theorem openStore_congr {s t : State} {d : Nat} (h1 : (t.slot d).mounted = (s.slot d).mounted)
    (h2 : (t.slot d).handle = (s.slot d).handle) (h3 : t.files = s.files) : t.openStore d = s.openStore d := by
  unfold State.openStore; rw [h1, h2, h3]

/-- What an open store is: the slot is mounted, and its handle names the file. -/
theorem openStore_eq_some {s : State} {d : Nat} {h : Handle} {f : File} (hs : s.openStore d = some (h, f)) :
    (s.slot d).mounted = true ∧ (s.slot d).handle = some h ∧ kvGet s.files h = some f := by
  unfold State.openStore at hs
  split at hs
  · rename_i hm
    split at hs
    · rename_i h' hh
      cases hf : kvGet s.files h' with
      | none => simp [hf] at hs
      | some f' => simp [hf] at hs; obtain ⟨rfl, rfl⟩ := hs; exact ⟨hm, hh, hf⟩
    · simp at hs
  · simp at hs

/-- What a StoreSeek can do (R57): move the position of its slot, take at most one answer, and nothing else. -/
theorem storeSeek_snd (d off : Nat) (s : State) :
    ∃ p, (storeSeek d off s).2 = s.answered.setPos d p ∧ ((storeSeek d off s).1 = true → p = off) := by
  unfold storeSeek State.answered
  cases s.params.store with
  | reference => exact ⟨off, rfl, fun _ => rfl⟩
  | oracle => exact ⟨_, rfl, fun h => if_pos h⟩

/-- A StoreRead returns at most as many bytes as asked for (R57). -/
theorem length_readBytes_le (ok : Bool) (f : File) (d n : Nat) (s : State) : (s.readBytes ok f d n).length ≤ n := by
  unfold State.readBytes State.readCount
  cases ok
  · simp
  · cases s.params.store <;> simp

/-- What a StoreRead can answer (R57): bytes of the slot's file from its position, or after a failed seek any bytes, at most
as many as asked for. -/
theorem storeRead_eq_some {ok : Bool} {d n : Nat} {s t : State} {bytes : List Byte}
    (h : storeRead ok d n s = some (bytes, t)) :
    ∃ hd f, s.openStore d = some (hd, f) ∧ bytes = s.readBytes ok f d n ∧ bytes.length ≤ n ∧
      t = s.answered.setPos d (s.pos d + bytes.length) := by
  unfold storeRead at h
  cases hs : s.openStore d with
  | none => simp [hs] at h
  | some q =>
    obtain ⟨hd, f⟩ := q
    simp only [hs, Option.some.injEq, Prod.mk.injEq] at h
    obtain ⟨rfl, rfl⟩ := h
    exact ⟨hd, f, rfl, rfl, length_readBytes_le ok f d n s, rfl⟩

/-- How many bytes a StoreWrite takes (R57): at most those handed over. -/
theorem writeCount_le (bytes : List Byte) (s : State) : s.writeCount bytes ≤ bytes.length := by
  unfold State.writeCount; cases s.params.store <;> simp

/-- What a StoreWrite can answer (R57): it changes the file of its slot and its position. -/
theorem storeWrite_eq_some {d k : Nat} {s t : State} {bytes : List Byte} (h : storeWrite d bytes s = some (k, t)) :
    ∃ hd f, s.openStore d = some (hd, f) ∧ k = s.writeCount bytes ∧
      t = (s.answered.setFile hd (s.written f (s.pos d) bytes)).setPos d (s.pos d + k) := by
  unfold storeWrite at h
  cases hs : s.openStore d with
  | none => simp [hs] at h
  | some q =>
    obtain ⟨hd, f⟩ := q
    simp only [hs, Option.some.injEq, Prod.mk.injEq] at h
    obtain ⟨rfl, rfl⟩ := h
    exact ⟨hd, f, rfl, rfl, rfl⟩

theorem length_landed_le (bytes : List Byte) (s : State) : (s.landed bytes).length ≤ bytes.length := by
  have hle := writeCount_le bytes s
  unfold State.landed
  rw [List.length_append, List.length_take, List.length_take]
  omega

/-- The bytes taken come first among those that land. -/
theorem getD_landed (bytes : List Byte) (s : State) {i : Nat} (hi : i < s.writeCount bytes) :
    i < (s.landed bytes).length ∧ (s.landed bytes).getD i 0 = bytes.getD i 0 := by
  have hle := writeCount_le bytes s
  have hlen : (bytes.take (s.writeCount bytes)).length = s.writeCount bytes := by simp; omega
  unfold State.landed
  refine ⟨by rw [List.length_append]; omega, ?_⟩
  rw [List.getD_append _ _ _ _ (by omega)]
  simp [List.getD_eq_getElem?_getD, hi]

theorem wf_extended {f : File} (pos : Nat) (bytes : List Byte) (s : State) (h : f.wf = true) :
    (s.extended f pos bytes).wf = true := by
  unfold State.extended
  split
  · exact File.wf_grow _ _ h
  · exact h

/-- A file is extended only by a write past its end, and keeps its bytes. -/
theorem byte_extended (f : File) (pos : Nat) (bytes : List Byte) (s : State) {a : Nat}
    (h : a < f.size ∨ pos + bytes.length ≤ f.size) : (s.extended f pos bytes).byte a = f.byte a := by
  unfold State.extended
  split
  · exact File.byte_grow f _ _ (by omega)
  · rfl

theorem size_le_extended (f : File) (pos : Nat) (bytes : List Byte) (s : State) :
    f.size ≤ (s.extended f pos bytes).size := by
  unfold State.extended
  split
  · rw [File.size_grow]; omega
  · exact Nat.le_refl _

/-- A StoreWrite keeps the canonical form of its file. -/
theorem wf_written {f : File} (pos : Nat) (bytes : List Byte) (s : State) (h : f.wf = true) :
    (s.written f pos bytes).wf = true := by
  have hx := wf_extended pos bytes s h
  unfold State.written
  cases s.params.store with
  | reference => exact File.wf_write pos [] bytes h
  | oracle =>
    dsimp only
    split
    · exact hx
    · exact File.wf_write pos _ _ hx

/-- The taken bytes are in the file (R57, R191). -/
theorem byte_written_taken {f : File} (pos : Nat) (bytes : List Byte) (s : State) (h : f.wf = true) {i : Nat}
    (hi : i < s.writeCount bytes) : (s.written f pos bytes).byte (pos + i) = some (bytes.getD i 0) := by
  have hle := writeCount_le bytes s
  have ⟨hl, hg⟩ := getD_landed bytes s hi
  have hx := wf_extended pos bytes s h
  unfold State.written
  cases s.params.store with
  | reference => exact File.byte_write_inside pos [] (by omega) h
  | oracle =>
    dsimp only
    rw [if_neg fun h0 => by simp [h0] at hl, File.byte_write_inside pos _ hl hx, hg]

/-- Outside the span handed over a byte of the old file reads as before, and a write that ends inside the file leaves its end
where it was. -/
theorem byte_written_outside {f : File} (pos : Nat) (bytes : List Byte) (s : State) {a : Nat}
    (ha : a < f.size ∨ pos + bytes.length ≤ f.size) (h : a < pos ∨ pos + bytes.length ≤ a) :
    (s.written f pos bytes).byte a = f.byte a := by
  have hle := length_landed_le bytes s
  have hx := byte_extended f pos bytes s ha
  have hsz := size_le_extended f pos bytes s
  unfold State.written
  cases s.params.store with
  | reference => exact File.byte_write_outside f pos [] bytes h (by omega)
  | oracle =>
    dsimp only
    split
    · exact hx
    · rw [File.byte_write_outside _ pos _ _ (by omega) (by omega), hx]

theorem storeByte_congr {s t : State} (h : t.files = s.files) (hd : Handle) (a : Nat) :
    t.storeByte hd a = s.storeByte hd a := by unfold State.storeByte; rw [h]

/-! ## The shape of a state and the turn -/

theorem shapeFault_congr {s t : State} (h1 : t.params = s.params) (h2 : t.engState = s.engState)
    (h3 : t.fbCnt = s.fbCnt) (h4 : t.tbCnt = s.tbCnt) (h5 : t.tb.length = s.tb.length)
    (h6 : t.cmdDrv = s.cmdDrv ∧ t.cmdLen = s.cmdLen) (h7 : t.dt.length = s.dt.length) (h8 : t.linkOpen = s.linkOpen) :
    t.shapeFault = s.shapeFault := by
  unfold State.shapeFault frameCountOK payloadCountOK latchOK linkOK
  rw [h1, h2, h3, h4, h5, h6.1, h6.2, h7, h8]

/-- What a state of the rules' shape is. -/
theorem shapeFault_eq_none {s : State} : s.shapeFault = none ↔
    s.dt.length = s.params.nDrives ∧ s.tb.length = s.params.maxTrackLen + 2 ∧ frameCountOK s = true ∧
      payloadCountOK s = true ∧ latchOK s = true ∧ linkOK s = true ∧ s.params.wf = true := by
  unfold State.shapeFault
  constructor
  · intro h
    split at h; · simp at h
    split at h; · simp at h
    split at h; · simp at h
    split at h; · simp at h
    split at h; · simp at h
    split at h; · simp at h
    split at h; · simp at h
    simp_all
  · rintro ⟨h1, h2, h3, h4, h5, h6, h7⟩; simp [h1, h2, h3, h4, h5, h6, h7]

/-- The state whose turn it is differs from the state only in its list of turns. -/
theorem takeTurn_snd (s : State) : ∃ ts, (takeTurn s).2 = { s with turns := ts } := by
  unfold takeTurn
  split
  · exact ⟨_, rfl⟩
  · exact ⟨_, rfl⟩
  · split <;> exact ⟨s.turns, rfl⟩
  · split
    · exact ⟨s.turns, rfl⟩
    · exact ⟨_, rfl⟩

/-- A step that goes on ran the event whose turn it was. -/
theorem step_eq_next {s t : State} (h : step s = .next t) :
    ∃ u, u = (takeTurn s).2 ∧
      (((takeTurn s).1 = .reset ∧ t = resetBlock u) ∨
        ((takeTurn s).1 ≠ .reset ∧ u.shapeFault = none ∧ runEvent (takeTurn s).1 u = .next t)) := by
  refine ⟨_, rfl, ?_⟩
  unfold step runTurn at h
  split at h
  · rename_i he
    exact .inl ⟨he, by injection h with h; exact h.symm⟩
  · rename_i he
    split at h
    · cases h
    · rename_i hs
      exact .inr ⟨he, hs, h⟩

/-! ## What each meaning can answer -/

/-- READ after its checks (R162 to R165). -/
theorem readTransfer_eq_next {ok : Bool} {d : Nat} {len : U16} {s t : State} (h : readTransfer ok d len s = .next t) :
    ∃ bytes u, storeRead ok d len.toNat s = some (bytes, u) ∧
      ((bytes.length < len.toNat ∧ t = drop .shortStoreRead u) ∨
        (bytes.length = len.toNat ∧ len.toNat + 2 ≤ u.tb.length ∧ t = answerTrack bytes u)) := by
  unfold readTransfer at h
  cases hr : storeRead ok d len.toNat s with
  | none => simp [hr] at h
  | some q =>
    obtain ⟨bytes, u⟩ := q
    simp only [hr] at h
    refine ⟨bytes, u, rfl, ?_⟩
    obtain ⟨_, _, _, _, hle, _⟩ := storeRead_eq_some hr
    split at h
    · rename_i hlt; injection h with h; exact .inl ⟨hlt, h.symm⟩
    · rename_i hge
      unfold sendTrack at h
      split at h
      · rename_i hb; injection h with h; exact .inr ⟨by omega, by omega, h.symm⟩
      · cases h

/-- READ (R160). -/
theorem execRead_eq_next {drv : BitVec 4} {trk : BitVec 12} {len : U16} {s t : State}
    (h : execRead drv trk len s = .next t) :
    (¬drv.toNat < s.params.nDrives ∧ t = drop .invalidDrive s.bumpRead) ∨
    (drv.toNat < s.params.nDrives ∧ ∃ c, trackCheck drv.toNat trk len (s.bumpRead.select drv.toNat true) = some c ∧
      t = drop c (s.bumpRead.select drv.toNat true)) ∨
    (drv.toNat < s.params.nDrives ∧ trackCheck drv.toNat trk len (s.bumpRead.select drv.toNat true) = none ∧
      readTrack drv.toNat (trackOffset trk len).toNat len
        ((s.bumpRead.select drv.toNat true).setCurTrack drv.toNat (trk.zeroExtend 16)) = .next t) := by
  unfold execRead at h
  split at h
  · rename_i hd
    have hd' : drv.toNat < s.params.nDrives := by simpa [driveOK] using hd
    split at h
    · rename_i c hc; injection h with h; exact .inr (.inl ⟨hd', c, hc, h.symm⟩)
    · rename_i hc; exact .inr (.inr ⟨hd', hc, h⟩)
  · rename_i hd
    injection h with h
    exact .inl ⟨by simpa [driveOK] using hd, h.symm⟩

/-- WRIT (R180): it always answers. -/
theorem execWrit_eq_next {drv : BitVec 4} {trk : BitVec 12} {len : U16} {s t : State}
    (h : execWrit drv trk len s = .next t) :
    (¬drv.toNat < s.params.nDrives ∧ t = drop .invalidDrive s.bumpWrit) ∨
    (drv.toNat < s.params.nDrives ∧ ∃ c, trackCheck drv.toNat trk len (s.bumpWrit.select drv.toNat true) = some c ∧
      t = answerReady .notReady (raiseDiag c (s.bumpWrit.select drv.toNat true))) ∨
    (drv.toNat < s.params.nDrives ∧ trackCheck drv.toNat trk len (s.bumpWrit.select drv.toNat true) = none ∧
      t = answerReady .ok
        (((s.bumpWrit.select drv.toNat true).setCurTrack drv.toNat (trk.zeroExtend 16)).latch drv trk len)) := by
  unfold execWrit at h
  split at h
  · rename_i hd
    have hd' : drv.toNat < s.params.nDrives := by simpa [driveOK] using hd
    split at h
    · rename_i c hc; injection h with h; exact .inr (.inl ⟨hd', c, hc, h.symm⟩)
    · rename_i hc; injection h with h; exact .inr (.inr ⟨hd', hc, h.symm⟩)
  · rename_i hd
    injection h with h
    exact .inl ⟨by simpa [driveOK] using hd, h.symm⟩

/-- DATA (R189): wrong checksum, failed seek, short write, or written. -/
theorem execData_eq_next {payload : List Byte} {k : U16} {s t : State} (h : execData payload k s = .next t) :
    payload.length = s.cmdLen.toNat ∧
    ((checksum payload ≠ k ∧ t = answerWsta .checksumError (raiseDiag .payloadChecksum s)) ∨
      (checksum payload = k ∧ ∃ p, 
        ((storeSeek s.cmdDrv.toNat (trackOffset s.cmdTrk s.cmdLen).toNat s).1 = false ∧
          t = answerWsta .writeError (raiseDiag .seekFailure (s.answered.setPos s.cmdDrv.toNat p))) ∨
        (p = (trackOffset s.cmdTrk s.cmdLen).toNat ∧
          ∃ m u, storeWrite s.cmdDrv.toNat payload (s.answered.setPos s.cmdDrv.toNat p) = some (m, u) ∧
            ((m < payload.length ∧ t = answerWsta .writeError (raiseDiag .shortStoreWrite u)) ∨
              (m = payload.length ∧ t = answerWsta .ok u))))) := by
  unfold execData at h
  split at h
  · rename_i hl
    refine ⟨hl, ?_⟩
    split at h
    · rename_i hc
      obtain ⟨p, hp, hok⟩ := storeSeek_snd s.cmdDrv.toNat (trackOffset s.cmdTrk s.cmdLen).toNat s
      refine .inr ⟨hc, p, ?_⟩
      rw [hp] at h
      split at h
      · rename_i hs
        refine .inr ⟨hok hs, ?_⟩
        unfold commitWrite at h
        have hd : (s.answered.setPos s.cmdDrv.toNat p).cmdDrv = s.cmdDrv := by simp
        rw [hd] at h
        cases hw : storeWrite s.cmdDrv.toNat payload (s.answered.setPos s.cmdDrv.toNat p) with
        | none => simp [hw] at h
        | some q =>
          obtain ⟨m, u⟩ := q
          simp only [hw] at h
          refine ⟨m, u, rfl, ?_⟩
          obtain ⟨_, _, _, hm, _⟩ := storeWrite_eq_some hw
          have hle := writeCount_le payload (s.answered.setPos s.cmdDrv.toNat p)
          split at h
          · rename_i hlt; injection h with h; exact .inl ⟨hlt, h.symm⟩
          · injection h with h; exact .inr ⟨by omega, h.symm⟩
      · rename_i hs
        injection h with h
        exact .inl ⟨by simpa using hs, h.symm⟩
    · rename_i hc
      injection h with h
      exact .inl ⟨hc, h.symm⟩
  · cases h

end Sys2Proof.Machine
end

