-- ==== Sys2Proof/Laws/PerInstr.lean ====
section
/-! SUPPORT. Statements about every instruction as syntax, one lemma for each constructor. -/

namespace Sys2Proof.Laws.EncodedSize

/-- The number of bytes of an instruction (30_encoding.md R70): 10 for a frame, two more than its data for a track block. -/
def size : Instr → Nat
  | .stat _ _ _ => 10
  | .read _ _ _ => 10
  | .writ _ _ _ => 10
  | .statResp _ => 10
  | .writRdy _ => 10
  | .wsta _ => 10
  | .track bytes => bytes.length + 2
  | .data payload _ => payload.length + 2

def Statement (i : Instr) : Prop := (encode i).length = size i

theorem stat (sel hl : BitVec 8) (trk : U16) : Statement (.stat sel hl trk) := rfl

theorem read (drv : BitVec 4) (trk : BitVec 12) (len : U16) : Statement (.read drv trk len) := rfl

theorem writ (drv : BitVec 4) (trk : BitVec 12) (len : U16) : Statement (.writ drv trk len) := rfl

theorem statResp (map : U16) : Statement (.statResp map) := rfl

theorem writRdy (r : Readiness) : Statement (.writRdy r) := rfl

theorem wsta (o : WstaCode) : Statement (.wsta o) := rfl

theorem track (bytes : List Byte) : Statement (.track bytes) := length_makeTrack bytes

theorem data (payload : List Byte) (k : U16) : Statement (.data payload k) := by simp [Statement, encode, size]

end Sys2Proof.Laws.EncodedSize
end

