-- ==== Sys2Proof/Tests/Slice0.lean ====
section
/-! SUPPORT. Tests: the check of WellFormed on ill-formed terms, words written out from the spec and what they decode to, one
step of each instruction, and a witness for the hypotheses of each statement. "Vn.m" is a vector of spec/95_test_vectors.md,
where the expected values come from. -/

namespace Sys2Proof.Tests

open Sys2Proof Sys2Proof.Machine Sys2Proof.Claims

/-! ## States -/

/-- The state an outcome goes on in. -/
def after : Host.Outcome State Fault Refusal → Option State
  | .next s => some s
  | .fault _ => none
  | .refused _ => none

def stopsWith : Host.Outcome State Fault Refusal → Option Fault
  | .next _ => none
  | .fault f => some f
  | .refused _ => none

/-- The store S0 of mount set A: byte i is i. -/
def fileS0 : File := { size := 64, cells := (List.range 63).map fun i => (i + 1, BitVec.ofNat 8 (i + 1)) }

/-- Reset, the link opened, mount set A (95_test_vectors.md): handle 10 on drive 0, handle 12 on drive 2. -/
def setA : State :=
  performRequest (.mount 2 12 32)
    (performRequest (.mount 0 10 64) { State.reset with linkOpen := true, files := [(10, fileS0)] })

/-- The same with S2 alone, on drive 2. -/
def onlyS2 : State := performRequest (.mount 2 12 32) { State.reset with linkOpen := true }

/-- A WRIT of drive 2, track `trk`, with all of its payload received but the bytes `rest`, which wait in the receive stream. -/
def payloadState (trk : BitVec 12) (got rest : List Byte) : State :=
  { onlyS2 with
    engState := .writPayload
    cmdDrv := 2
    cmdTrk := trk
    cmdLen := 4
    tb := got ++ List.replicate (18 - got.length) 0
    tbCnt := got.length
    rx := rest }

/-- A WRIT of drive 2, track `trk`, with its payload and trailer received. -/
def commitState (trk : BitVec 12) (block : List Byte) : State :=
  { payloadState trk block [] with engState := .writCommit }

/-- The same in front of a store that answers as `draws` says. -/
def commitOracle (draws : List StoreDraw) : State :=
  { commitState 0 [0x01, 0x02, 0x03, 0x04, 0x0A, 0x00] with
    params := { Params.testConfig with store := .oracle }
    draws := draws }

def draw (ok : Bool) (pos count : Nat) : StoreDraw :=
  { seekOk := ok, seekPos := pos, count := count, data := List.replicate count 0xA5, rest := [], size := 0, gap := [] }

/-- The engine's state after a step, its output and its last error. -/
def seen (o : Host.Outcome State Fault Refusal) : Option (EngState × List Byte × BitVec 8) :=
  (after o).map fun s => (s.engState, s.tx, s.lastErr)

/-! ## WellFormed refuses -/

theorem test_wf_track_at_limit : (Instr.track (List.replicate 16 0)).wf Params.testConfig = true := by decide

theorem test_wf_track_too_long : (Instr.track (List.replicate 17 0)).wf Params.testConfig = false := by decide

theorem test_wf_data_at_limit : (Instr.data (List.replicate 16 0) 0).wf Params.testConfig = true := by decide

theorem test_wf_data_too_long : (Instr.data (List.replicate 17 0) 0).wf Params.testConfig = false := by decide

theorem test_wf_params_no_drive : { Params.testConfig with nDrives := 0 }.wf = false := by decide

theorem test_wf_params_17_drives : { Params.testConfig with nDrives := 17 }.wf = false := by decide

theorem test_wf_params_length : { Params.testConfig with maxTrackLen := 65536 }.wf = false := by decide

theorem test_wf_params_thresholds :
    { Params.testConfig with tiers := { TierTable.standard with t2 := 200000 } }.wf = false := by decide

theorem test_wf_params_tier1 :
    { Params.testConfig with tiers := { TierTable.standard with c1 := 0 } }.wf = false := by decide

theorem test_wf_params_tier2 :
    { Params.testConfig with tiers := { TierTable.standard with c2 := 4097 } }.wf = false := by decide

theorem test_wf_params_tier3 :
    { Params.testConfig with tiers := { TierTable.standard with c3 := 0 } }.wf = false := by decide

theorem test_wf_params_counter : { Params.testConfig with ctrW := 0 }.wf = false := by decide

/-! ## Checksum (V1) and words of the spec -/

set_option maxRecDepth 4000 in
/-- V1.5. -/
theorem test_checksum_wraps : checksum (List.replicate 258 0xFF) = 0x00FE := by decide

/-- V1.10. -/
theorem test_checksum_sum : checksum [0xDE, 0xAD, 0xBE, 0xEF] = 0x0338 := by decide

/-- V3.4. -/
theorem test_decode_stat :
    decode .rxFrame [0x53, 0x54, 0x41, 0x54, 0x02, 0x00, 0x34, 0x12, 0x84, 0x01] = .ok (.stat 2 0 0x1234) := by decide

/-- V3.5: the head byte. -/
theorem test_decode_stat_head :
    decode .rxFrame [0x53, 0x54, 0x41, 0x54, 0x03, 0x80, 0xFF, 0xFF, 0xBD, 0x03] = .ok (.stat 3 0x80 0xFFFF) := by decide

/-- V4.16: byte 5 holds the drive and the high nibble of the track. -/
theorem test_decode_read :
    decode .rxFrame [0x52, 0x45, 0x41, 0x44, 0xFE, 0x37, 0x10, 0x00, 0x61, 0x02] = .ok (.read 3 2046 16) := by decide

/-- V5.15. -/
theorem test_decode_writ :
    decode .rxFrame [0x57, 0x52, 0x49, 0x54, 0x05, 0x20, 0x10, 0x00, 0x7B, 0x01] = .ok (.writ 2 5 16) := by decide

/-- The response of V3.1. -/
theorem test_decode_statResp :
    decode .txFrame [0x53, 0x54, 0x41, 0x54, 0x00, 0x00, 0x05, 0x00, 0x41, 0x01] = .ok (.statResp 0x0005) := by decide

/-- V2.2 and V2.3. -/
theorem test_decode_writRdy :
    decode .txFrame [0x57, 0x52, 0x49, 0x54, 0x00, 0x00, 0x00, 0x00, 0x46, 0x01] = .ok (.writRdy .ok) ∧
    decode .txFrame [0x57, 0x52, 0x49, 0x54, 0x01, 0x00, 0x00, 0x00, 0x47, 0x01] = .ok (.writRdy .notReady) := by decide

/-- V2.4. -/
theorem test_decode_wsta :
    decode .txFrame [0x57, 0x53, 0x54, 0x41, 0x00, 0x00, 0x00, 0x00, 0x3F, 0x01] = .ok (.wsta .ok) ∧
    decode .txFrame [0x57, 0x53, 0x54, 0x41, 0x02, 0x00, 0x00, 0x00, 0x41, 0x01] = .ok (.wsta .checksumError) ∧
    decode .txFrame [0x57, 0x53, 0x54, 0x41, 0x03, 0x00, 0x00, 0x00, 0x42, 0x01] = .ok (.wsta .writeError) := by decide

/-- The response of V4.1. -/
theorem test_decode_track :
    decode (.txBlock 4) [0x08, 0x09, 0x0A, 0x0B, 0x26, 0x00] = .ok (.track [0x08, 0x09, 0x0A, 0x0B]) := by decide

/-- V5.8: a received block is a DATA whatever its trailer. -/
theorem test_decode_data :
    decode (.rxBlock 4) [0x01, 0x02, 0x03, 0x04, 0x0B, 0x00] = .ok (.data [0x01, 0x02, 0x03, 0x04] 0x000B) := by decide

/-- V2.8: one flipped bit. -/
theorem test_decode_bad_checksum :
    decode .rxFrame [0x53, 0x54, 0x41, 0x54, 0x00, 0x01, 0x00, 0x00, 0x3D, 0x00] = .error .frameChecksum := by decide

/-- V2.10: the tag match is exact. -/
theorem test_decode_lower_case :
    decode .rxFrame [0x73, 0x74, 0x61, 0x74, 0x00, 0x00, 0x00, 0x00, 0xBC, 0x01] = .error .unknownCommand := by decide

/-- R85: WSTA is no command. -/
theorem test_decode_wsta_received :
    decode .rxFrame [0x57, 0x53, 0x54, 0x41, 0x00, 0x00, 0x00, 0x00, 0x3F, 0x01] = .error .unknownCommand := by decide

/-- R79: NOT_READY is never emitted in a WSTA (0x013F + 1 = 0x0140). -/
theorem test_decode_wsta_code_1 :
    decode .txFrame [0x57, 0x53, 0x54, 0x41, 0x01, 0x00, 0x00, 0x00, 0x40, 0x01] = .error .notAResponse := by decide

theorem test_decode_short : decode .rxFrame [0x53, 0x54, 0x41] = .error .badLength := by decide

theorem test_decode_track_trailer :
    decode (.txBlock 4) [0x08, 0x09, 0x0A, 0x0B, 0x27, 0x00] = .error .blockChecksum := by decide

/-- V5.15: the encoder. -/
theorem test_encode_writ :
    encode (.writ 2 5 16) = [0x57, 0x52, 0x49, 0x54, 0x05, 0x20, 0x10, 0x00, 0x7B, 0x01] := by decide

/-- V3.4 as a table word, bit 0 the least significant bit of the first byte. -/
theorem test_table_word_stat : decodeTableWord 80 0x01841234000254415453 = some (.stat 2 0 0x1234) := by decide

/-- The fields of the row READ at 0: a frame with a checksum of 0 is not well-checked (R85). -/
theorem test_table_word_checksum : decodeTableWord 80 0x44414552 = none := by decide

/-- V3.6: the STAT of no drive, the first instruction after reset. -/
theorem test_fetch_word_stat :
    seen (step (State.reset.withFetchWord 80 0x023B000000FF54415453)) =
      some (.awaitFrame, [0x53, 0x54, 0x41, 0x54, 0x00, 0x00, 0x00, 0x00, 0x3C, 0x01], 0) := by decide

/-! ## Mount set A -/

theorem test_mount_set_A :
    setA.mountMap = 0x0005 ∧ (setA.slot 0).maxTrack = 33 ∧ (setA.slot 2).maxTrack = 33 ∧
      (setA.slot 0).handle = some 10 ∧ (setA.slot 1).mounted = false := by decide

/-! ## One step of each instruction -/

/-- V3.1. -/
theorem test_stat_answer :
    seen (step (setA.withFrame [0x53, 0x54, 0x41, 0x54, 0x00, 0x01, 0x05, 0x00, 0x42, 0x01])) =
      some (.awaitFrame, [0x53, 0x54, 0x41, 0x54, 0x00, 0x00, 0x05, 0x00, 0x41, 0x01], 0) := by decide

/-- V3.5: an unmounted drive is selected, its curTrack set. -/
theorem test_stat_unmounted :
    (after (step (setA.withFrame [0x53, 0x54, 0x41, 0x54, 0x03, 0x80, 0xFF, 0xFF, 0xBD, 0x03]))).map (·.slot 3) =
      some { mounted := false, handle := none, maxTrack := 0, curTrack := 0xFFFF, enabled := true,
             headLoaded := true } := by decide

/-- V4.1. -/
theorem test_read_answer :
    seen (step (setA.withFrame [0x52, 0x45, 0x41, 0x44, 0x02, 0x00, 0x04, 0x00, 0x22, 0x01])) =
      some (.awaitFrame, [0x08, 0x09, 0x0A, 0x0B, 0x26, 0x00], 0) := by decide

/-- V4.11: a short read is silent, and curTrack is set. -/
theorem test_read_past_the_end :
    (after (step (setA.withFrame [0x52, 0x45, 0x41, 0x44, 0x02, 0x20, 0x10, 0x00, 0x4E, 0x01]))).map
      (fun s => (s.tx, s.lastErr, (s.slot 2).curTrack)) = some ([], 9, 2) := by decide

/-- V5.1: the readiness and the latch. -/
theorem test_writ_ready :
    (after (step (setA.withFrame [0x57, 0x52, 0x49, 0x54, 0x01, 0x00, 0x04, 0x00, 0x4B, 0x01]))).map
      (fun s => (s.engState, s.tx, s.cmdDrv, s.cmdTrk, s.cmdLen, (s.slot 0).curTrack)) =
      some (.writPayload, [0x57, 0x52, 0x49, 0x54, 0x00, 0x00, 0x00, 0x00, 0x46, 0x01], 0, 1, 4, 1) := by decide

/-- V5.5: the track after maxTrack. -/
theorem test_writ_track_range :
    seen (step (setA.withFrame [0x57, 0x52, 0x49, 0x54, 0x22, 0x00, 0x01, 0x00, 0x69, 0x01])) =
      some (.awaitFrame, [0x57, 0x52, 0x49, 0x54, 0x01, 0x00, 0x00, 0x00, 0x47, 0x01], 7) := by decide

/-- V2.5. -/
theorem test_statResp :
    seen (exec (.statResp 0xFFFF) setA) =
      some (.awaitFrame, [0x53, 0x54, 0x41, 0x54, 0x00, 0x00, 0xFF, 0xFF, 0x3A, 0x03], 0) := by decide

/-- V2.2 and V2.3. -/
theorem test_writRdy :
    seen (exec (.writRdy .ok) setA) =
      some (.writPayload, [0x57, 0x52, 0x49, 0x54, 0x00, 0x00, 0x00, 0x00, 0x46, 0x01], 0) ∧
    seen (exec (.writRdy .notReady) setA) =
      some (.awaitFrame, [0x57, 0x52, 0x49, 0x54, 0x01, 0x00, 0x00, 0x00, 0x47, 0x01], 0) := by decide

/-- V2.4. -/
theorem test_wsta :
    seen (exec (.wsta .writeError) setA) =
      some (.awaitFrame, [0x57, 0x53, 0x54, 0x41, 0x03, 0x00, 0x00, 0x00, 0x42, 0x01], 0) := by decide

/-- V4.1's response as a row of its own; a block of MAX_TRACK_LEN + 1 bytes is in no state of the rules. -/
theorem test_track :
    seen (exec (.track [0x08, 0x09, 0x0A, 0x0B]) setA) = some (.awaitFrame, [0x08, 0x09, 0x0A, 0x0B, 0x26, 0x00], 0) ∧
    stopsWith (exec (.track (List.replicate 17 0)) setA) = some .blockLength := by decide

/-- A write past the end of S2 (track 9 of length 4, offset 36): the gap reads 0x00 (R58), the answer is OK, and maxTrack
stays (R194). -/
theorem test_data_extends :
    (after (step (commitState 9 [0xDE, 0xAD, 0xBE, 0xEF, 0x38, 0x03]))).map
      (fun s => (s.tx, (List.range 9).map fun i => s.storeByte 12 (32 + i))) =
      some ([0x57, 0x53, 0x54, 0x41, 0x00, 0x00, 0x00, 0x00, 0x3F, 0x01],
        [some 0x00, some 0x00, some 0x00, some 0x00, some 0xDE, some 0xAD, some 0xBE, some 0xEF, none]) := by decide

/-- V5.8: a wrong trailer. -/
theorem test_data_checksum :
    seen (step (commitState 0 [0x01, 0x02, 0x03, 0x04, 0x0B, 0x00])) =
      some (.awaitFrame, [0x57, 0x53, 0x54, 0x41, 0x02, 0x00, 0x00, 0x00, 0x41, 0x01], 11) := by decide

/-! ## A store within R57 -/

/-- V5.12: the seek fails. -/
theorem test_oracle_seek :
    seen (step (commitOracle [draw false 7 0])) =
      some (.awaitFrame, [0x57, 0x53, 0x54, 0x41, 0x03, 0x00, 0x00, 0x00, 0x42, 0x01], 8) := by decide

/-- V5.13: two bytes are taken. -/
theorem test_oracle_short_write :
    (after (step (commitOracle [draw true 0 2, draw true 0 2]))).map
      (fun s => (s.lastErr, s.storeByte 12 0, s.storeByte 12 1)) = some (10, some 0x01, some 0x02) := by decide

/-- V4.14: the seek fails and the read then returns 4 bytes, whatever they are: they are sent. V4.15: it returns 2: two
errors. -/
theorem test_oracle_read :
    (after (exec (.read 2 2 4) (commitOracle [draw false 0 0, draw true 0 4]))).map
      (fun s => (s.errCnt, s.lastErr, s.tx)) = some (1, 8, [0xA5, 0xA5, 0xA5, 0xA5, 0x94, 0x02]) ∧
    (after (exec (.read 2 2 4) (commitOracle [draw false 0 0, draw true 0 2]))).map
      (fun s => (s.errCnt, s.lastErr, s.tx)) = some (2, 9, []) := by decide

/-- 93 I5: a write past the end (offset 36 of a 32-byte file) may leave a larger file, and any byte in the gap. -/
theorem test_oracle_extends :
    (after (exec (.data [0xDE, 0xAD, 0xBE, 0xEF] 0x0338)
      { commitOracle [draw true 0 0, { draw true 0 4 with size := 42, gap := [0x11] }] with cmdTrk := 9 })).map
      (fun s => [s.storeByte 12 31, s.storeByte 12 32, s.storeByte 12 36, s.storeByte 12 39, s.storeByte 12 41,
        s.storeByte 12 42]) =
      some [some 0x00, some 0x11, some 0xDE, some 0xEF, some 0x00, none] := by decide

/-! ## The other agents -/

/-- V8.1. -/
theorem test_tiers :
    [0, 64, 199999, 200000, 499999, 500000, 1000000000].map (tierMaxTrack .standard) =
      [33, 33, 33, 75, 75, 2046, 2046] := by decide

/-- V8.4 and V8.6: a remount clears the slot; an index of N_DRIVES is refused. -/
theorem test_remount :
    ((performRequest (.mount 0 11 300000)
        ((setA.select 0 true).setCurTrack 0 5)).slot 0 =
      { mounted := true, handle := some 11, maxTrack := 75, curTrack := 0, enabled := false, headLoaded := false }) ∧
    performRequest (.mount 4 11 64) setA = setA := by decide

/-- V7.2 and V7.3. -/
theorem test_frame_deadline :
    (after (step { onlyS2 with fbCnt := 6, turns := [.frameDeadline] })).map (fun s => (s.fbCnt, s.errCnt, s.lastErr)) =
      some (0, 1, 2) ∧
    (after (step { onlyS2 with turns := [.frameDeadline] })).map (fun s => (s.fbCnt, s.errCnt, s.lastErr)) =
      some (0, 0, 0) := by decide

/-- V9.2: the counter wraps. -/
theorem test_counter_wraps : (raiseDiag .notMounted { setA with errCnt := 2 ^ 32 - 1 }).errCnt = 0 := by decide

/-- V8.7: held in WRIT_PAYLOAD, performed once the engine waits again. -/
theorem test_held_request :
    (after (step { payloadState 0 [] [] with turns := [.request (.mount 1 11 64)] })).map
      (fun s => (s.opPend, (s.slot 1).mounted)) = some (some (.mount 1 11 64), false) ∧
    (after (step { onlyS2 with opPend := some (.mount 1 11 64) })).map (fun s => (s.opPend, s.mountMap)) =
      some (none, 0x0006) := by decide

/-- V9.3 and V9.4: reset and close during a payload. -/
theorem test_reset_and_close :
    (after (step { payloadState 0 [1, 2, 3] [] with turns := [.reset] })).map
      (fun s => (s.engState, s.tbCnt, s.tx, s.mountMap)) = some (.awaitFrame, 0, [], 0) ∧
    (after (step { payloadState 0 [1, 2, 3] [] with turns := [.linkDown] })).map
      (fun s => (s.engState, s.tbCnt, s.tx, s.mountMap)) = some (.awaitFrame, 0, [], 4) := by decide

/-- 93: FB_CNT = 11 is a state no rule reaches; so is an instance outside R5. -/
theorem test_unreachable_state :
    stopsWith (step { setA with fbCnt := 11 }) = some .frameCount ∧
    stopsWith (step { setA with params := { Params.testConfig with ctrW := 0 } }) = some .parameters := by decide

/-! ## Witnesses: concrete states and operands that meet the hypotheses of the statements -/

theorem inv_onlyS2 : Inv onlyS2 := by constructor <;> first | decide | (unfold SlotOK; decide)

/-- V5.8's exchange with the right trailer. -/
def commitOK : State := commitState 0 [0x01, 0x02, 0x03, 0x04, 0x0A, 0x00]

theorem inv_commitOK : Inv commitOK := by constructor <;> first | decide | (unfold SlotOK; decide)

/-- The last track of the tier. -/
theorem inv_commit_last : Inv (commitState 33 [0x01, 0x02, 0x03, 0x04, 0x0A, 0x00]) := by
  constructor <;> first | decide | (unfold SlotOK; decide)

/-- A store whose seek fails, and one that takes two bytes. -/
def seekFails : State := commitOracle [draw false 7 0, draw true 0 2]

def writeShort : State := commitOracle [draw true 0 0, draw true 0 2]

theorem inv_seekFails : Inv seekFails := by constructor <;> first | decide | (unfold SlotOK; decide)

theorem inv_writeShort : Inv writeShort := by constructor <;> first | decide | (unfold SlotOK; decide)

/-- V3.4 received and about to be dispatched. -/
def dispatchState : State := onlyS2.withFrame [0x53, 0x54, 0x41, 0x54, 0x02, 0x00, 0x34, 0x12, 0x84, 0x01]

/-- One payload byte short of the trailer's end, that byte waiting. -/
def lastPayloadByte : State := payloadState 0 [0x01, 0x02, 0x03, 0x04, 0x0A] [0x00]

theorem next_of {o : Host.Outcome State Fault Refusal} (h : (after o).isSome = true) : ∃ t, o = .next t := by
  cases o with
  | next t => exact ⟨t, rfl⟩
  | fault f => cases h
  | refused r => cases h

theorem engineNext_idle {s : State} (h : s.turns = []) (h1 : ¬(s.opPend.isSome = true ∧ s.engState = .awaitFrame))
    (h2 : s.shapeFault = none) (h3 : s.linkOpen = true) : EngineNext s s := ⟨⟨.inl ⟨h, rfl⟩, h1, h2⟩, h3⟩

theorem engineNext_dispatch : EngineNext dispatchState { dispatchState with turns := [] } :=
  ⟨⟨.inr ⟨[], rfl, rfl⟩, by decide, by decide⟩, rfl⟩

/-- The event `e` put first. -/
def atHead (e : Event) (s : State) : State := { s with turns := [e] }

theorem eventNext_head {e : Event} {s : State} (h1 : ¬(s.opPend.isSome = true ∧ s.engState = .awaitFrame))
    (h2 : (atHead e s).shapeFault = none) : EventNext e (atHead e s) { s with turns := [] } := ⟨⟨[], rfl, rfl⟩, h1, h2⟩

/-- V2.6's head: the greatest sum of 8 bytes. -/
theorem test_witness_ChecksumIsByteSum :
    (List.replicate 8 (0xFF : Byte)).length ≤ 8 ∧ checksum (List.replicate 8 0xFF) = 0x07F8 := by decide

/-- V1.12. -/
theorem test_witness_ChecksumLaws :
    [(1 : Byte), 2, 3, 4].Perm [2, 1, 3, 4] ∧ (0 < [(1 : Byte)].length ∧ (2 : Byte) ≠ [(1 : Byte)].getD 0 0) ∧
      (1 : Byte).toNat + (2 : Byte).toNat = (2 : Byte).toNat + (1 : Byte).toNat := by
  refine ⟨.swap 2 1 [3, 4], by decide, by decide⟩

/-- V2.7. -/
theorem test_witness_FrameCodecRoundTrip :
    [(0x00 : Byte), 0x01, 0x02, 0x03, 0x04, 0x05, 0x06, 0x07, 0x08, 0x09].length = 10 ∧
      ({ tag := [0, 1, 2, 3], param1 := 0x0504, param2 := 0x0706, checksum := 0x0908 } : Frame).tag.length = 4 := by decide

theorem test_witness_MadeFramesAreWellChecked : tagWSTA.length = 4 := by decide

theorem test_witness_DecodeEncodeEveryInstruction :
    Params.testConfig.wf = true ∧ (Instr.data (List.replicate 16 0xFF) 0).wf Params.testConfig = true := by decide

/-- V4.16. -/
theorem test_witness_ReceivedFramesHaveOneReading :
    decode .rxFrame [0x52, 0x45, 0x41, 0x44, 0xFE, 0x37, 0x10, 0x00, 0x61, 0x02] = .ok (.read 3 2046 16) := by decide

/-- V2.11, V2.1, V4.10, V2.2, V2.9: one frame for each clause. -/
theorem test_witness_ReceivedFrameReading :
    wellChecked [0x52, 0x45, 0x41, 0x44, 0x00, 0x00, 0x10, 0x00, 0x2D, 0x01] = false ∧
    wellChecked [0x53, 0x54, 0x41, 0x54, 0x00, 0x00, 0x00, 0x00, 0x3C, 0x01] = true ∧
    wellChecked [0x52, 0x45, 0x41, 0x44, 0x00, 0x00, 0x00, 0x00, 0x1C, 0x01] = true ∧
    wellChecked [0x57, 0x52, 0x49, 0x54, 0x00, 0x00, 0x00, 0x00, 0x46, 0x01] = true ∧
    wellChecked [0x58, 0x58, 0x58, 0x58, 0x00, 0x00, 0x00, 0x00, 0x60, 0x01] = true := by decide

theorem test_witness_StepRunsTheDecodedInstruction :
    (EngineNext dispatchState { dispatchState with turns := [] } ∧ dispatchState.engState = .dispatch ∧
      decode .rxFrame dispatchState.fb.toList = .ok (.stat 2 0 0x1234)) ∧
    (EngineNext commitOK commitOK ∧ commitOK.engState = .writCommit ∧
      decode (.rxBlock commitOK.cmdLen) (commitOK.tb.take (commitOK.cmdLen.toNat + 2)) =
        .ok (.data [0x01, 0x02, 0x03, 0x04] 0x000A)) :=
  ⟨⟨engineNext_dispatch, by decide, by decide⟩, engineNext_idle rfl (by decide) (by decide) rfl, by decide, by decide⟩

/-- V2.8 and V2.9 received. -/
theorem test_witness_RejectedFramesAreDropped :
    (∃ s u, EngineNext s u ∧ s.engState = .dispatch ∧ checksum (s.fb.toList.take 8) ≠ rd16 s.fb.toList 8) ∧
    (∃ s u, EngineNext s u ∧ s.engState = .dispatch ∧ checksum (s.fb.toList.take 8) = rd16 s.fb.toList 8 ∧
      s.fb.toList.take 4 ≠ [0x53, 0x54, 0x41, 0x54] ∧ s.fb.toList.take 4 ≠ [0x52, 0x45, 0x41, 0x44] ∧
      s.fb.toList.take 4 ≠ [0x57, 0x52, 0x49, 0x54]) :=
  ⟨⟨onlyS2.withFrame [0x53, 0x54, 0x41, 0x54, 0x00, 0x01, 0x00, 0x00, 0x3D, 0x00], _,
      ⟨⟨.inr ⟨[], rfl, rfl⟩, by decide, by decide⟩, rfl⟩, by decide, by decide⟩,
    ⟨onlyS2.withFrame [0x58, 0x58, 0x58, 0x58, 0x00, 0x00, 0x00, 0x00, 0x60, 0x01], _,
      ⟨⟨.inr ⟨[], rfl, rfl⟩, by decide, by decide⟩, rfl⟩, by decide, by decide, by decide, by decide, by decide⟩⟩

/-- No byte waiting, and the first and the tenth byte of a frame. -/
theorem test_witness_FrameByteStep :
    (EngineNext onlyS2 onlyS2 ∧ onlyS2.engState = .awaitFrame ∧ onlyS2.rx = []) ∧
    (EngineNext { onlyS2 with rx := [0x53] } { onlyS2 with rx := [0x53] } ∧ onlyS2.fbCnt = 0) ∧
    EngineNext { onlyS2 with rx := [0x53], fbCnt := 9 } { onlyS2 with rx := [0x53], fbCnt := 9 } :=
  ⟨⟨engineNext_idle rfl (by decide) (by decide) rfl, by decide, by decide⟩,
    ⟨engineNext_idle rfl (by decide) (by decide) rfl, by decide⟩, engineNext_idle rfl (by decide) (by decide) rfl⟩

theorem test_witness_PayloadByteStep :
    (EngineNext lastPayloadByte lastPayloadByte ∧ lastPayloadByte.engState = .writPayload ∧ lastPayloadByte.rx = [0x00] ∧
      lastPayloadByte.tbCnt = lastPayloadByte.cmdLen.toNat + 1) ∧
    (EngineNext (payloadState 0 [] []) (payloadState 0 [] []) ∧ (payloadState 0 [] []).rx = []) :=
  ⟨⟨engineNext_idle rfl (by decide) (by decide) rfl, by decide, by decide, by decide⟩,
    engineNext_idle rfl (by decide) (by decide) rfl, by decide⟩

/-- The last index of the table and the first that names no drive. -/
theorem test_witness_StatUpdatesAndAnswers :
    onlyS2.dt.length = onlyS2.params.nDrives ∧ (3 : BitVec 8).toNat < onlyS2.params.nDrives := by decide

theorem test_witness_StatOfNoDriveAnswersAllTheSame :
    onlyS2.params.nDrives ≤ (4 : BitVec 8).toNat ∧ onlyS2.params.nDrives ≤ (0xFF : BitVec 8).toNat := by decide

theorem test_witness_AddressedDriveIsTheOnlySelected :
    onlyS2.dt.length = onlyS2.params.nDrives ∧ addressed (.read 3 0 16) = some 3 ∧ 3 < onlyS2.params.nDrives ∧
      ∃ t, exec (.read 3 0 16) onlyS2 = .next t :=
  ⟨by decide, by decide, by decide, next_of (by decide)⟩

theorem test_witness_InvalidDriveIsDropped :
    onlyS2.params.nDrives ≤ (4 : BitVec 4).toNat ∧ onlyS2.params.nDrives ≤ (15 : BitVec 4).toNat := by decide

/-- V4.7, V4.8, V4.4: each check at its boundary. -/
theorem test_witness_ReadFailedCheckIsDropped :
    onlyS2.dt.length = onlyS2.params.nDrives ∧ (2 : BitVec 4).toNat < onlyS2.params.nDrives ∧
      CheckFails onlyS2 1 0 16 ∧ CheckFails onlyS2 2 0 17 ∧ CheckFails onlyS2 2 34 1 := by
  unfold CheckFails; decide

/-- The last 4-byte track of the 32-byte store. -/
theorem test_witness_ReadSendsTheTrack :
    Inv onlyS2 ∧ onlyS2.params.store = .reference ∧ (2 : BitVec 4).toNat < onlyS2.params.nDrives ∧
      ¬CheckFails onlyS2 2 7 4 ∧ onlyS2.openStore (2 : BitVec 4).toNat = some (12, File.blank 32) ∧
      offsetOf 7 4 + (4 : U16).toNat ≤ (File.blank 32).size :=
  ⟨inv_onlyS2, by decide, by decide, by unfold CheckFails; decide, by decide, by decide⟩

/-- The track after it. -/
theorem test_witness_ReadPastTheEndIsDropped :
    Inv onlyS2 ∧ onlyS2.params.store = .reference ∧ (2 : BitVec 4).toNat < onlyS2.params.nDrives ∧
      ¬CheckFails onlyS2 2 8 4 ∧ onlyS2.openStore (2 : BitVec 4).toNat = some (12, File.blank 32) ∧
      (File.blank 32).size < offsetOf 8 4 + (4 : U16).toNat :=
  ⟨inv_onlyS2, by decide, by decide, by unfold CheckFails; decide, by decide, by decide⟩

theorem test_witness_ReadTakesAnyStoreAnswer :
    Inv seekFails ∧ seekFails.params.store = .oracle ∧ (2 : BitVec 4).toNat < seekFails.params.nDrives ∧
      ¬CheckFails seekFails 2 33 16 ∧ seekFails.openStore (2 : BitVec 4).toNat = some (12, File.blank 32) ∧
      seekFails.peekDraw.seekOk = false ∧
    (Inv writeShort ∧ writeShort.params.store = .oracle ∧ ¬CheckFails writeShort 2 33 16 ∧
      writeShort.openStore (2 : BitVec 4).toNat = some (12, File.blank 32) ∧ writeShort.peekDraw.seekOk = true) :=
  ⟨inv_seekFails, by decide, by decide, by unfold CheckFails; decide, by decide, by decide, inv_writeShort, by decide,
    by unfold CheckFails; decide, by decide, by decide⟩

/-- V5.3, V5.4, V5.5. -/
theorem test_witness_WritNotReadyEndsTheExchange :
    onlyS2.dt.length = onlyS2.params.nDrives ∧ (2 : BitVec 4).toNat < onlyS2.params.nDrives ∧
      CheckFails onlyS2 1 0 4 ∧ CheckFails onlyS2 2 0 17 ∧ CheckFails onlyS2 2 34 1 := by
  unfold CheckFails; decide

/-- The longest length and the last track. -/
theorem test_witness_WritReadyOpensThePayload :
    onlyS2.dt.length = onlyS2.params.nDrives ∧ (2 : BitVec 4).toNat < onlyS2.params.nDrives ∧
      ¬CheckFails onlyS2 2 33 16 := by
  unfold CheckFails; decide

/-- V5.8 and V5.10. -/
theorem test_witness_ChecksumErrorLeavesTheStore :
    ([0x01, 0x02, 0x03, 0x04].length = commitOK.cmdLen.toNat ∧ checksum [0x01, 0x02, 0x03, 0x04] ≠ 0x000B) ∧
    (EventNext .payloadTimeout (atHead .payloadTimeout (payloadState 0 [] [])) (payloadState 0 [] []) ∧
      (payloadState 0 [] []).engState = .writPayload) :=
  ⟨by decide, eventNext_head (by decide) (by decide), by decide⟩

theorem test_witness_DataOfAnotherLengthStops :
    [0x01, 0x02, 0x03, 0x04, 0x05].length ≠ commitOK.cmdLen.toNat := by decide

theorem test_witness_DataIsWrittenToTheReferenceStore :
    Inv commitOK ∧ commitOK.engState = .writCommit ∧ commitOK.params.store = .reference ∧
      [0x01, 0x02, 0x03, 0x04].length = commitOK.cmdLen.toNat ∧
      commitOK.openStore commitOK.cmdDrv.toNat = some (12, File.blank 32) :=
  ⟨inv_commitOK, by decide, by decide, by decide, by decide⟩

/-- V5.12 and V5.13. -/
theorem test_witness_DataTakesAnyStoreAnswer :
    (Inv seekFails ∧ seekFails.engState = .writCommit ∧ seekFails.params.store = .oracle ∧
      [0x01, 0x02, 0x03, 0x04].length = seekFails.cmdLen.toNat ∧
      seekFails.openStore seekFails.cmdDrv.toNat = some (12, File.blank 32) ∧ seekFails.peekDraw.seekOk = false) ∧
    (Inv writeShort ∧ writeShort.engState = .writCommit ∧ writeShort.params.store = .oracle ∧
      [0x01, 0x02, 0x03, 0x04].length = writeShort.cmdLen.toNat ∧
      writeShort.openStore writeShort.cmdDrv.toNat = some (12, File.blank 32) ∧ writeShort.peekDraw.seekOk = true ∧
      2 = min writeShort.dropDraw.peekDraw.count 4) :=
  ⟨⟨inv_seekFails, by decide, by decide, by decide, by decide, by decide⟩,
    inv_writeShort, by decide, by decide, by decide, by decide, by decide, by decide⟩

theorem test_witness_WrittenTrackReadsBack :
    Inv commitOK ∧ commitOK.engState = .writCommit ∧ commitOK.params.store = .reference ∧
      [0x01, 0x02, 0x03, 0x04].length = commitOK.cmdLen.toNat :=
  ⟨inv_commitOK, by decide, by decide, by decide⟩

theorem test_witness_RowsKeepTheOutside : ∃ t, exec (.writ 2 0 4) onlyS2 = .next t := next_of (by decide)

theorem test_witness_OnlyDataWritesAStore :
    (∀ payload k, Instr.read 2 0 4 ≠ .data payload k) ∧ ∃ t, exec (.read 2 0 4) onlyS2 = .next t :=
  ⟨fun _ _ h => Instr.noConfusion h, next_of (by decide)⟩

/-- The byte after the track and a byte of no track. -/
theorem test_witness_DataWritesOnlyItsTrack :
    commitOK.cmdDrv.toNat < commitOK.storePos.length ∧
      (∃ t, exec (.data [0x01, 0x02, 0x03, 0x04] 0x000A) commitOK = .next t) ∧ commitOK.storeByte 12 4 = some 0x00 ∧
      ¬((commitOK.slot commitOK.cmdDrv.toNat).handle = some 12 ∧ (trackOffset commitOK.cmdTrk commitOK.cmdLen).toNat ≤ 4 ∧
        4 < (trackOffset commitOK.cmdTrk commitOK.cmdLen).toNat + 4) :=
  ⟨by decide, next_of (by decide), by decide, by decide⟩

theorem test_witness_MountAndUnmount :
    onlyS2.engState = .awaitFrame ∧ onlyS2.dt.length = onlyS2.params.nDrives ∧
    ((onlyS2.slot 3).mounted = false ∧
      EventNext (.request (.mount 3 9 200000)) (atHead (.request (.mount 3 9 200000)) onlyS2) onlyS2) ∧
    ((onlyS2.slot 2).mounted = true ∧
      EventNext (.request (.unmount 2)) (atHead (.request (.unmount 2)) onlyS2) onlyS2) :=
  ⟨by decide, by decide, ⟨by decide, eventNext_head (by decide) (by decide)⟩, by decide,
    eventNext_head (by decide) (by decide)⟩

theorem test_witness_RemountIsUnmountThenMount :
    (EventNext (.request (.mount 2 9 64)) (atHead (.request (.mount 2 9 64)) onlyS2) onlyS2 ∧ onlyS2.opPend = none ∧
      onlyS2.engState = .awaitFrame) ∧ (onlyS2.slot 2).mounted = true ∧ (onlyS2.slot 3).mounted = false :=
  ⟨⟨eventNext_head (by decide) (by decide), by decide, by decide⟩, by decide, by decide⟩

theorem test_witness_RequestsWaitForTheEndOfACommand :
    (EventNext (.request (.unmount 2)) (atHead (.request (.unmount 2)) (payloadState 0 [] [])) (payloadState 0 [] []) ∧
      (payloadState 0 [] []).engState ≠ .awaitFrame) ∧
    (EventNext (.request (.unmount 4)) (atHead (.request (.unmount 4)) onlyS2) onlyS2 ∧
      (OpRequest.unmount 4).accepted onlyS2.params = false) ∧
    ({ onlyS2 with opPend := some (.unmount 2) }.shapeFault = none ∧ onlyS2.engState = .awaitFrame ∧
      ∀ rest, onlyS2.turns ≠ .reset :: rest ∧ onlyS2.turns ≠ .linkDown :: rest) :=
  ⟨⟨eventNext_head (by decide) (by decide), by decide⟩, ⟨eventNext_head (by decide) (by decide), by decide⟩, by decide,
    by decide, fun _ => by rw [show onlyS2.turns = [] by decide]; simp⟩

theorem test_witness_StatusReadsWithoutSideEffect : EventNext .status (atHead .status onlyS2) onlyS2 :=
  eventNext_head (by decide) (by decide)

/-- One byte and nine bytes of a frame. -/
theorem test_witness_FrameDeadlineDiscardsAPartialFrame :
    (EventNext .frameDeadline (atHead .frameDeadline { onlyS2 with fbCnt := 1 }) { onlyS2 with fbCnt := 1 } ∧
      onlyS2.engState = .awaitFrame) ∧
    EventNext .frameDeadline (atHead .frameDeadline { onlyS2 with fbCnt := 9 }) { onlyS2 with fbCnt := 9 } :=
  ⟨⟨eventNext_head (by decide) (by decide), by decide⟩, eventNext_head (by decide) (by decide)⟩

/-- V7.3, V5.14, V9.5. -/
theorem test_witness_EventsElsewhereDoNothing :
    (EventNext .frameDeadline (atHead .frameDeadline onlyS2) onlyS2 ∧ onlyS2.fbCnt = 0) ∧
    (EventNext .frameDeadline (atHead .frameDeadline (payloadState 0 [] [])) (payloadState 0 [] []) ∧
      (payloadState 0 [] []).engState ≠ .awaitFrame) ∧
    (EventNext .payloadTimeout (atHead .payloadTimeout onlyS2) onlyS2 ∧ onlyS2.engState ≠ .writPayload) :=
  ⟨⟨eventNext_head (by decide) (by decide), by decide⟩, ⟨eventNext_head (by decide) (by decide), by decide⟩,
    eventNext_head (by decide) (by decide), by decide⟩

theorem test_witness_LinkCloseAbandonsTheCommand :
    ((atHead .linkDown (payloadState 0 [1, 2, 3] [])).shapeFault = none ∧ (payloadState 0 [1, 2, 3] []).linkOpen = true) ∧
    (EngineTurn (atHead .engine State.reset) State.reset ∧ State.reset.linkOpen = false) ∧
    EngineTurn State.reset State.reset ∧ EventNext (.byte 0x53) (atHead (.byte 0x53) onlyS2) onlyS2 :=
  ⟨by decide, ⟨⟨.inr ⟨[], rfl, rfl⟩, by decide, by decide⟩, by decide⟩, ⟨.inl ⟨rfl, rfl⟩, by decide, by decide⟩,
    eventNext_head (by decide) (by decide)⟩

theorem test_witness_LinkOpensOnAnEmptyFrame :
    EventNext .linkUp (atHead .linkUp State.reset) State.reset ∧ State.reset.linkOpen = false :=
  ⟨eventNext_head (by decide) (by decide), by decide⟩

theorem test_witness_ResetActsInAnyState : (atHead .reset (payloadState 0 [1, 2, 3] [])).turns = .reset :: [] := rfl

theorem test_witness_InvariantHoldsAtReset : Params.testConfig.wf = true := by decide

theorem test_witness_InvariantIsKept : Inv commitOK ∧ ∃ t, step commitOK = .next t :=
  ⟨inv_commitOK, next_of (by decide)⟩

theorem test_witness_NoStepIsFatal : Inv seekFails := inv_seekFails

theorem test_witness_ParametersAreNeverWritten : ∃ t, step commitOK = .next t := next_of (by decide)

theorem test_witness_EngineStateTransitions :
    (∃ t, step dispatchState = .next t) ∧ (takeTurn dispatchState).1 = .engine ∧ dispatchState.linkOpen = true ∧
      dispatchState.engState = .dispatch :=
  ⟨next_of (by decide), by decide, by decide, by decide⟩

theorem test_witness_AStepEmitsOneResponse : ∃ t, step dispatchState = .next t := next_of (by decide)

/-- The first byte of the track. -/
theorem test_witness_OnlyTheCommitStepWritesStores :
    Inv commitOK ∧ commitOK.storeByte 12 0 = some 0x00 ∧
      (after (step commitOK)).map (fun t => t.storeByte 12 0) = some (some 0x01) :=
  ⟨inv_commitOK, by decide, by decide⟩

theorem test_witness_OnlyTheOperatorMounts :
    (∃ t, step dispatchState = .next t) ∧ (takeTurn dispatchState).1 = .engine :=
  ⟨next_of (by decide), by decide⟩

theorem test_witness_DiagnosticsNeverReachTheWire :
    SameButDiagnostics dispatchState ({ dispatchState with errCnt := 5, lastErr := 9 }.select 1 true) ∧
      ∃ t, step dispatchState = .next t :=
  ⟨⟨by decide, by decide, fun j => by
      match j with
      | 0 | 1 | 2 | 3 => decide
      | j + 4 => exact ⟨rfl, rfl, rfl⟩⟩, next_of (by decide)⟩

theorem test_witness_QuiescentBlockStays : Quiescent onlyS2 ∧ onlyS2.turns = [] ∧ onlyS2.shapeFault = none := by
  unfold Quiescent; decide

end Sys2Proof.Tests
end

section
/-! PROOF. No step writes a parameter (10_state.md R36): each operation, each row of the opcode table and each agent's event
leaves `params` as it is. -/

namespace Sys2Proof.Machine

/-! ## The operations keep the parameters -/

@[simp] theorem drop_params (c : Diag) (s : State) : (drop c s).params = s.params := rfl

@[simp] theorem answerStat_params (map : U16) (s : State) : (answerStat map s).params = s.params := rfl

@[simp] theorem answerWsta_params (o : WstaCode) (s : State) : (answerWsta o s).params = s.params := rfl

@[simp] theorem answerTrack_params (bytes : List Byte) (s : State) : (answerTrack bytes s).params = s.params := rfl

@[simp] theorem answerReady_params (r : Readiness) (s : State) : (answerReady r s).params = s.params := by
  cases r <;> rfl

@[simp] theorem takeFrameByte_params (s : State) : (takeFrameByte s).params = s.params := by
  unfold takeFrameByte; split <;> rfl

@[simp] theorem takePayloadByte_params (s : State) : (takePayloadByte s).params = s.params := by
  unfold takePayloadByte; split <;> rfl

@[simp] theorem resetBlock_params (s : State) : (resetBlock s).params = s.params := rfl

@[simp] theorem statUpdate_params (sel hl : BitVec 8) (trk : U16) (s : State) :
    (statUpdate sel hl trk s).params = s.params := by
  unfold statUpdate; split <;> rfl

/-! ## The store primitives keep the parameters -/

@[simp] theorem storeSeek_params (d off : Nat) (s : State) : (storeSeek d off s).2.params = s.params := by
  obtain ⟨p, hp, -⟩ := storeSeek_snd d off s
  rw [hp, setPos_params, answered_params]

@[simp] theorem readSeek_params (d off : Nat) (s : State) : (readSeek d off s).params = s.params := by
  unfold readSeek; split <;> simp

theorem storeRead_params {sought : Bool} {d n : Nat} {s t : State} {bytes : List Byte}
    (h : storeRead sought d n s = some (bytes, t)) : t.params = s.params := by
  obtain ⟨_, _, -, -, -, rfl⟩ := storeRead_eq_some h
  rw [setPos_params, answered_params]

theorem storeWrite_params {d k : Nat} {s t : State} {bytes : List Byte}
    (h : storeWrite d bytes s = some (k, t)) : t.params = s.params := by
  obtain ⟨_, _, -, -, rfl⟩ := storeWrite_eq_some h
  rw [setPos_params, setFile_params, answered_params]

/-! ## The rows of the opcode table keep the parameters -/

theorem sendTrack_params {bytes : List Byte} {s t : State} (h : sendTrack bytes s = .next t) :
    t.params = s.params := by
  unfold sendTrack at h
  split at h
  · cases h; rfl
  · cases h

theorem readTransfer_params {sought : Bool} {d : Nat} {len : U16} {s t : State}
    (h : readTransfer sought d len s = .next t) : t.params = s.params := by
  obtain ⟨bytes, u, hread, ⟨-, rfl⟩ | ⟨-, -, rfl⟩⟩ := readTransfer_eq_next h
  · rw [drop_params, storeRead_params hread]
  · rw [answerTrack_params, storeRead_params hread]

theorem execRead_params {drv : BitVec 4} {trk : BitVec 12} {len : U16} {s t : State}
    (h : execRead drv trk len s = .next t) : t.params = s.params := by
  obtain ⟨-, rfl⟩ | ⟨-, c, -, rfl⟩ | ⟨-, -, htransfer⟩ := execRead_eq_next h
  · rfl
  · rfl
  · rw [readTransfer_params htransfer, readSeek_params]; rfl

theorem execWrit_params {drv : BitVec 4} {trk : BitVec 12} {len : U16} {s t : State}
    (h : execWrit drv trk len s = .next t) : t.params = s.params := by
  obtain ⟨-, rfl⟩ | ⟨-, c, -, rfl⟩ | ⟨-, -, rfl⟩ := execWrit_eq_next h <;> rfl

theorem execData_params {payload : List Byte} {k : U16} {s t : State} (h : execData payload k s = .next t) :
    t.params = s.params := by
  obtain ⟨-, ⟨-, rfl⟩ | ⟨-, p, ⟨-, rfl⟩ | ⟨-, m, u, hwrite, hend⟩⟩⟩ := execData_eq_next h
  · rfl
  · simp
  · have hu : u.params = s.params := by simpa using storeWrite_params hwrite
    obtain ⟨-, rfl⟩ | ⟨-, rfl⟩ := hend <;> simpa using hu

/-- R36 for every row of the opcode table. -/
theorem exec_params {i : Instr} {s t : State} (h : exec i s = .next t) : t.params = s.params := by
  cases i with
  | stat _ _ _ | statResp _ | writRdy _ | wsta _ => cases h; simp
  | read drv trk len => exact execRead_params h
  | writ drv trk len => exact execWrit_params h
  | track bytes => exact sendTrack_params h
  | data payload k => exact execData_params h

/-! ## The engine's turn keeps the parameters -/

theorem dispatchStep_params {s t : State} (h : dispatchStep s = .next t) : t.params = s.params := by
  unfold dispatchStep at h
  split at h
  case h_1 => exact exec_params h
  case h_2 | h_3 => cases h; rfl
  case h_4 | h_5 | h_6 => cases h

theorem commitStep_params {s t : State} (h : commitStep s = .next t) : t.params = s.params := by
  unfold commitStep at h
  split at h
  · exact exec_params h
  · cases h

theorem engineTurn_params {s t : State} (h : engineTurn s = .next t) : t.params = s.params := by
  unfold engineTurn at h
  split at h
  · cases hs : s.engState with
    | awaitFrame => rw [hs] at h; cases h; simp
    | dispatch => rw [hs] at h; exact dispatchStep_params h
    | writPayload => rw [hs] at h; cases h; simp
    | writCommit => rw [hs] at h; exact commitStep_params h
  · cases h; rfl

/-! ## The other agents' events keep the parameters -/

@[simp] theorem performRequest_params (r : OpRequest) (s : State) : (performRequest r s).params = s.params := by
  unfold performRequest
  split
  · cases r <;> rfl
  · rfl

@[simp] theorem byteArrives_params (b : Byte) (s : State) : (byteArrives b s).params = s.params := by
  unfold byteArrives; split <;> rfl

@[simp] theorem frameDeadline_params (s : State) : (frameDeadline s).params = s.params := by
  unfold frameDeadline; split <;> rfl

@[simp] theorem payloadTimeout_params (s : State) : (payloadTimeout s).params = s.params := by
  unfold payloadTimeout; split <;> rfl

@[simp] theorem operatorRequest_params (r : OpRequest) (s : State) : (operatorRequest r s).params = s.params := by
  unfold operatorRequest; split_ifs <;> simp

@[simp] theorem performHeld_params (s : State) : (performHeld s).params = s.params := by
  unfold performHeld
  split
  · split <;> simp
  · rfl

@[simp] theorem readStatus_params (s : State) : (readStatus s).params = s.params := rfl

@[simp] theorem linkUp_params (s : State) : (linkUp s).params = s.params := rfl

@[simp] theorem linkDown_params (s : State) : (linkDown s).params = s.params := by
  unfold linkDown; split <;> rfl

/-- R36 for every agent's event. -/
theorem runEvent_params {e : Event} {s t : State} (h : runEvent e s = .next t) : t.params = s.params := by
  cases e with
  | engine => exact engineTurn_params h
  | byte _ | frameDeadline | payloadTimeout | request _ | performHeld | status | linkUp | linkDown | reset =>
    cases h; simp

@[simp] theorem takeTurn_params (s : State) : (takeTurn s).2.params = s.params := by
  obtain ⟨ts, hts⟩ := takeTurn_snd s
  rw [hts]

/-- Settles O47: a step is a reset or an agent's event, run on the state whose turn it is, and neither writes `params`. -/
theorem parametersAreNeverWritten : Obligations.ParametersAreNeverWritten := by
  intro s t h
  obtain ⟨u, rfl, ⟨-, rfl⟩ | ⟨-, -, hrun⟩⟩ := step_eq_next h
  · rw [resetBlock_params, takeTurn_params]
  · rw [runEvent_params hrun, takeTurn_params]

end Sys2Proof.Machine
end

section
/-! PROOF. The checksum as a natural number (R100) and the round trip of the frame codec (R104). -/

namespace Sys2Proof

/-! ## The checksum as a sum of naturals -/

/-- R100: the 16-bit sum is the natural sum of the bytes, modulo 2^16. -/
theorem checksum_toNat (s : List Byte) : (checksum s).toNat = (s.map BitVec.toNat).sum % 65536 := by
  induction s with
  | nil => rfl
  | cons x s ih =>
    have hx : (x.zeroExtend 16).toNat = x.toNat := BitVec.toNat_setWidth_of_le (by decide)
    rw [checksum_cons, BitVec.toNat_add, hx, ih, List.map_cons, List.sum_cons, Nat.add_mod_mod]

theorem sum_toNat_le (s : List Byte) : (s.map BitVec.toNat).sum ≤ s.length * 255 := by
  have hbyte : ∀ n ∈ s.map BitVec.toNat, n ≤ 255 := by
    intro n hn
    obtain ⟨x, -, rfl⟩ := List.mem_map.1 hn
    omega
  simpa using List.sum_le_card_nsmul _ 255 hbyte

/-- Settles O1: the checksum is the natural sum modulo 2^16, and eight bytes sum to at most 8 * 255, so that no wrap
happens. -/
theorem checksumIsByteSum : Obligations.ChecksumIsByteSum := by
  refine ⟨checksum_nil, fun s => ⟨checksum_toNat s, fun hlen => ?_⟩⟩
  have hsum : (s.map BitVec.toNat).sum ≤ 2040 := (sum_toNat_le s).trans (by omega)
  exact ⟨by rw [checksum_toNat, Nat.mod_eq_of_lt (by omega)], hsum⟩

/-! ## The frame codec -/

/-- The two bytes at `i`, read as a u16 and stored again behind the bytes before them, are the bytes up to `i + 2`. -/
theorem take_append_le16_rd16 (b : List Byte) {i : Nat} (h : i + 1 < b.length) :
    b.take i ++ le16 (rd16 b i) = b.take (i + 2) := by
  have hpair : le16 (rd16 b i) = [b[i]] ++ [b[i + 1]] := by
    unfold rd16
    rw [le16_pair, List.getD_eq_getElem _ _ (by omega), List.getD_eq_getElem _ _ h]
    rfl
  rw [hpair, ← List.append_assoc, List.take_append_getElem, List.take_append_getElem]

/-- A u16 stored anywhere in a list of bytes is read at the length of what precedes it. -/
theorem rd16_append_le16_append (l r : List Byte) (v : U16) : rd16 (l ++ le16 v ++ r) l.length = v := by
  rw [rd16_append_left _ _ (by simp), rd16_last]

/-- R104, its first half: the four fields cover the ten bytes in order. -/
theorem encodeFrame_decodeFrame {b : List Byte} (h : b.length = 10) : encodeFrame (decodeFrame b) = b := by
  unfold encodeFrame decodeFrame
  rw [take_append_le16_rd16 b (by omega), take_append_le16_rd16 b (by omega), take_append_le16_rd16 b (by omega),
    List.take_of_length_le (by omega)]

/-- R104, its second half: each field is read at the length of the fields before it. -/
theorem decodeFrame_encodeFrame {f : Frame} (h : f.tag.length = 4) : decodeFrame (encodeFrame f) = f := by
  obtain ⟨tag, p1, p2, k⟩ := f
  change tag.length = 4 at h
  have htag : (encodeFrame ⟨tag, p1, p2, k⟩).take 4 = tag := by
    simp [encodeFrame, ← h]
  have hp1 : rd16 (encodeFrame ⟨tag, p1, p2, k⟩) 4 = p1 := by
    simpa [encodeFrame, h] using rd16_append_le16_append tag (le16 p2 ++ le16 k) p1
  have hp2 : rd16 (encodeFrame ⟨tag, p1, p2, k⟩) 6 = p2 := by
    simpa [encodeFrame, h] using rd16_append_le16_append (tag ++ le16 p1) (le16 k) p2
  have hk : rd16 (encodeFrame ⟨tag, p1, p2, k⟩) 8 = k := by
    simpa [encodeFrame, h] using rd16_last (tag ++ le16 p1 ++ le16 p2) k
  rw [decodeFrame, htag, hp1, hp2, hk]

/-- Settles O3, from the two halves of R104. -/
theorem frameCodecRoundTrip : Obligations.FrameCodecRoundTrip :=
  ⟨fun _ => encodeFrame_decodeFrame, fun _ => decodeFrame_encodeFrame⟩

end Sys2Proof
end

section
/-! PROOF. The reading of ten received bytes (41_dispatcher.md R122, R123): first the checksum, then the tag. -/

namespace Sys2Proof

theorem wellChecked_iff {bs : List Byte} : wellChecked bs = true ↔ checksum (bs.take 8) = rd16 bs 8 := beq_iff_eq

/-! ## The checksum comes first -/

theorem decodeChecked_of_checksum_ne (read : Frame → Except Reject Instr) {bs : List Byte} (hlen : bs.length = 10)
    (hsum : checksum (bs.take 8) ≠ rd16 bs 8) : decodeChecked read bs = .error .frameChecksum := by
  rw [decodeChecked, if_neg (not_not.2 hlen), if_neg (mt wellChecked_iff.1 hsum)]

theorem decodeChecked_of_checksum_eq (read : Frame → Except Reject Instr) {bs : List Byte} (hlen : bs.length = 10)
    (hsum : checksum (bs.take 8) = rd16 bs 8) : decodeChecked read bs = read (decodeFrame bs) := by
  rw [decodeChecked, if_neg (not_not.2 hlen), if_pos (wellChecked_iff.2 hsum)]

/-! ## Then the tag, all four bytes of it -/

theorem decodeCommand_of_tagSTAT {f : Frame} (h : f.tag = tagSTAT) :
    decodeCommand f = .ok (.stat (f.param1.extractLsb' 0 8) (f.param1.extractLsb' 8 8) f.param2) := if_pos h

theorem decodeCommand_of_tagREAD {f : Frame} (h : f.tag = tagREAD) :
    decodeCommand f = .ok (.read (f.param1.extractLsb' 12 4) (f.param1.extractLsb' 0 12) f.param2) := by
  have hstat : f.tag ≠ tagSTAT := h ▸ by decide
  rw [decodeCommand, if_neg hstat, if_pos h]

theorem decodeCommand_of_tagWRIT {f : Frame} (h : f.tag = tagWRIT) :
    decodeCommand f = .ok (.writ (f.param1.extractLsb' 12 4) (f.param1.extractLsb' 0 12) f.param2) := by
  have hstat : f.tag ≠ tagSTAT := h ▸ by decide
  have hread : f.tag ≠ tagREAD := h ▸ by decide
  rw [decodeCommand, if_neg hstat, if_neg hread, if_pos h]

theorem decodeCommand_of_other_tag {f : Frame} (hstat : f.tag ≠ tagSTAT) (hread : f.tag ≠ tagREAD)
    (hwrit : f.tag ≠ tagWRIT) : decodeCommand f = .error .unknownCommand := by
  rw [decodeCommand, if_neg hstat, if_neg hread, if_neg hwrit]

/-- Settles O7: a wrong checksum decides before the tag is looked at; behind a right one the decoder compares the first four
bytes, which are the frame's tag, with each command's tag. -/
theorem receivedFrameReading : Obligations.ReceivedFrameReading := by
  intro bs hlen
  refine ⟨decodeChecked_of_checksum_ne decodeCommand hlen, fun hsum => ?_⟩
  have hdecode : decode .rxFrame bs = decodeCommand (decodeFrame bs) :=
    decodeChecked_of_checksum_eq decodeCommand hlen hsum
  rw [hdecode]
  exact ⟨fun htag => ⟨_, _, _, decodeCommand_of_tagSTAT htag⟩, fun htag => ⟨_, _, _, decodeCommand_of_tagREAD htag⟩,
    fun htag => ⟨_, _, _, decodeCommand_of_tagWRIT htag⟩, decodeCommand_of_other_tag (f := decodeFrame bs)⟩

end Sys2Proof
end

section
/-! PROOF. A STAT of a valid index (42_stat.md R150, R152, R154): the update of its slot, the map read after it, and the one
response. -/

namespace Sys2Proof

/-- R100: the checksum of two pieces is the sum of theirs. -/
theorem checksum_append (a b : List Byte) : checksum (a ++ b) = checksum a + checksum b := by
  conv_lhs => rw [checksum, List.foldl_append, foldl_sum]
  rfl

theorem checksum_le16 (v : U16) :
    checksum (le16 v) = (v.extractLsb' 0 8).zeroExtend 16 + (v.extractLsb' 8 8).zeroExtend 16 := by
  simp [le16, checksum_cons, checksum_nil]

end Sys2Proof

namespace Sys2Proof.Machine

open Sys2Proof.Claims

/-- R78, R79: the bytes of a STAT response. Its checksum is 0x013C, the sum of the tag and the code, and the two bytes of the
map. -/
theorem encode_statResp (map : U16) : encode (.statResp map) = statResponse map := by
  have hhead : checksum (tagSTAT ++ le16 0x0000) = 0x013C := by decide
  rw [encode, makeFrame, makeTrack, checksum_append, hhead, checksum_le16, ← BitVec.add_assoc]
  rfl

/-- R77: the head bit is set by every value but zero. -/
theorem headBit_eq (hl : BitVec 8) : headBit hl = decide (hl ≠ 0) := by
  rw [headBit, Bool.eq_iff_iff, bne_iff_ne, decide_eq_true_iff]

/-- R127 and R30 together: the selection of drive `d`, and then its new `curTrack`. -/
theorem selected_select_setCurTrack (d : Nat) (h : Bool) (t : U16) (s : State) :
    Selected s.dt d h (withTrack t) ((s.select d h).setCurTrack d t).dt := by
  refine ⟨by simp, fun j hj => ?_⟩
  change ((s.select d h).setCurTrack d t).slot j = _
  rw [slot_setCurTrack, slot_select]
  by_cases hjd : j = d
  · subst hjd
    simp [hj, withTrack, State.slot]
  · simp [hjd, Ne.symm hjd, clearFlags, State.slot]

/-- R152: a valid index passes the check of R126. -/
theorem statUpdate_of_lt {sel : BitVec 8} {s : State} (hl : BitVec 8) (trk : U16) (h : sel.toNat < s.params.nDrives) :
    statUpdate sel hl trk s = (s.select sel.toNat (headBit hl)).setCurTrack sel.toNat trk :=
  if_pos (decide_eq_true h)

/-- R154: bit `i` of the map that a STAT reads after its update. -/
theorem getLsbD_mountMap_statUpdate (sel hl : BitVec 8) (trk : U16) (s : State) {i : Nat} (hi : i < 16) :
    (statUpdate sel hl trk s).mountMap.getLsbD i =
      (decide (i < s.params.nDrives) && ((statUpdate sel hl trk s).slot i).mounted) := by
  rw [getLsbD_mountMap _ hi, statUpdate_params]

/-- R33: the statements' next value of a counter is the model's. -/
theorem inc_eq (s : State) (n : Nat) : inc s n = ctrInc s.params n := rfl

/-- R154: a STAT response is one row at the end of the transmit stream, and Finish. -/
theorem answerStat_eq (map : U16) (s : State) :
    answerStat map s = { s with tx := s.tx ++ statResponse map, fbCnt := 0, engState := .awaitFrame } := by
  rw [answerStat, encode_statResp]
  rfl

/-- Settles O14: the update selects the drive and sets its `curTrack`, the map is read from the updated table, and the
response and Finish give the rest of the state. -/
theorem statUpdatesAndAnswers : Obligations.StatUpdatesAndAnswers := by
  intro s sel hl trk _ hsel
  have hupdate : statUpdate sel hl trk s.bumpStat =
      (s.bumpStat.select sel.toNat (headBit hl)).setCurTrack sel.toNat trk := statUpdate_of_lt hl trk hsel
  refine ⟨(statUpdate sel hl trk s.bumpStat).dt, (statUpdate sel hl trk s.bumpStat).mountMap, ?_,
    fun i hi => getLsbD_mountMap_statUpdate sel hl trk s.bumpStat hi, ?_⟩
  · rw [hupdate, ← headBit_eq]
    exact selected_select_setCurTrack sel.toNat (headBit hl) trk s.bumpStat
  · rw [exec, execStat, answerStat_eq, hupdate]
    simp [inc_eq]

end Sys2Proof.Machine
end

section
/-! PROOF. The engine's turn (41_dispatcher.md R120; 60_exceptions.md R240), and its payload byte step (44_writ.md R185). -/

namespace Sys2Proof.Machine

open Sys2Proof.Claims

/-! ## A step that is the engine's -/

theorem heldDue_eq_false {s : State} (h : ¬(s.opPend.isSome = true ∧ s.engState = .awaitFrame)) :
    s.heldDue = false := by
  simpa [State.heldDue] using h

/-- The state whose turn it is differs from the state only in its list of turns. -/
theorem eq_with_turns_of_engineTurn {s u : State} (h : EngineTurn s u) : ∃ ts, u = { s with turns := ts } := by
  obtain ⟨⟨-, rfl⟩ | ⟨rest, -, rfl⟩, -, -⟩ := h
  · exact ⟨u.turns, rfl⟩
  · exact ⟨rest, rfl⟩

/-- R240: the turn is the engine's whether the list of turns is empty or says so. -/
theorem takeTurn_of_engineTurn {s u : State} (h : EngineTurn s u) : takeTurn s = (.engine, u) := by
  obtain ⟨hturns, hheld, -⟩ := h
  have hdue : s.heldDue = false := heldDue_eq_false hheld
  obtain ⟨hnil, rfl⟩ | ⟨rest, hcons, rfl⟩ := hturns
  · simp [takeTurn, hnil, hdue]
  · simp [takeTurn, hcons, hdue]

theorem shapeFault_of_engineTurn {s u : State} (h : EngineTurn s u) : u.shapeFault = none := by
  have ⟨_, _, hshape⟩ := h
  obtain ⟨ts, rfl⟩ := eq_with_turns_of_engineTurn h
  exact hshape

/-- R240: a step on the engine's turn is the engine's one step. -/
theorem step_of_engineTurn {s u : State} (h : EngineTurn s u) : step s = engineTurn u := by
  rw [step, takeTurn_of_engineTurn h, runTurn, if_neg Event.noConfusion, shapeFault_of_engineTurn h]
  rfl

/-! ## The payload byte step -/

/-- R120: in WRIT_PAYLOAD the engine takes a payload byte. -/
theorem engineTurn_of_writPayload {s : State} (hlink : s.linkOpen = true) (hstate : s.engState = .writPayload) :
    engineTurn s = .next (takePayloadByte s) := by
  rw [engineTurn, if_pos hlink, hstate]

/-- R24, R181, R185: while the payload is incomplete, TB has room for its next byte. -/
theorem tbCnt_lt_length_tb {s : State} (hshape : s.shapeFault = none) (hstate : s.engState = .writPayload) :
    s.tbCnt < s.tb.length := by
  obtain ⟨-, htb, -, hcount, hlatch, -, -⟩ := shapeFault_eq_none.1 hshape
  have hcnt : s.tbCnt < s.cmdLen.toNat + 2 := by simpa [payloadCountOK, hstate] using hcount
  have hlen : s.cmdLen.toNat ≤ s.params.maxTrackLen := by
    simp only [latchOK, hstate, Bool.and_eq_true, decide_eq_true_eq] at hlatch
    exact hlatch.2
  omega

/-- A step on the engine's turn in WRIT_PAYLOAD takes a payload byte. -/
theorem step_of_engineNext_writPayload {s u : State} (h : EngineNext s u) (hstate : s.engState = .writPayload) :
    step s = .next (takePayloadByte u) := by
  obtain ⟨hturn, hlink⟩ := h
  rw [step_of_engineTurn hturn]
  obtain ⟨ts, rfl⟩ := eq_with_turns_of_engineTurn hturn
  exact engineTurn_of_writPayload hlink hstate

theorem takePayloadByte_of_rx_nil {s : State} (hrx : s.rx = []) : takePayloadByte s = s := by
  rw [takePayloadByte, hrx]

/-- R185: the byte goes to index TB_CNT of TB, which keeps its other bytes, and the last one ends the payload. -/
theorem takePayloadByte_of_rx_cons {s : State} {x : Byte} {rest : List Byte} (hshape : s.shapeFault = none)
    (hstate : s.engState = .writPayload) (hrx : s.rx = x :: rest) :
    takePayloadByte s = { s with
      rx := rest, tb := s.tb.take s.tbCnt ++ x :: s.tb.drop (s.tbCnt + 1), tbCnt := s.tbCnt + 1
      engState := if s.tbCnt = s.cmdLen.toNat + 1 then .writCommit else .writPayload } := by
  have htb : s.tb.set s.tbCnt x = s.tb.take s.tbCnt ++ x :: s.tb.drop (s.tbCnt + 1) :=
    List.set_eq_take_cons_drop x (tbCnt_lt_length_tb hshape hstate)
  have hlast : s.tbCnt + 1 = s.cmdLen.toNat + 2 ↔ s.tbCnt = s.cmdLen.toNat + 1 := by omega
  simp only [takePayloadByte, hrx, htb, hlast, hstate]

/-- Settles O13: the step takes a payload byte of the state whose turn it is, and that differs from the state only in its
list of turns. -/
theorem payloadByteStep : Obligations.PayloadByteStep := by
  intro s u hnext hstate
  have hshape : u.shapeFault = none := shapeFault_of_engineTurn hnext.1
  rw [step_of_engineNext_writPayload hnext hstate]
  obtain ⟨ts, rfl⟩ := eq_with_turns_of_engineTurn hnext.1
  exact ⟨fun hrx => congrArg Host.Outcome.next (takePayloadByte_of_rx_nil hrx),
    fun _ _ hrx => congrArg Host.Outcome.next (takePayloadByte_of_rx_cons hshape hstate hrx)⟩

end Sys2Proof.Machine
end

section
/-! PROOF. The laws of the checksum (40_checksum_codec.md section 1), made frames (R114), and that decoding and encoding
are inverse on every row of the table (30_encoding.md sections 1 to 4). -/

namespace Sys2Proof

open Sys2Proof.Claims

/-! ## Laws of the checksum -/

theorem checksum_perm {a b : List Byte} (h : a.Perm b) : checksum a = checksum b := by
  apply BitVec.eq_of_toNat_eq
  rw [checksum_toNat, checksum_toNat, (h.map BitVec.toNat).sum_eq]

/-- Two bytes differ as u16 summands as they differ as bytes. -/
theorem zeroExtend_injective {x y : Byte} (h : x.zeroExtend 16 = y.zeroExtend 16) : x = y := by
  bv_omega

theorem checksum_set_ne {a : List Byte} {i : Nat} {x : Byte} (hi : i < a.length) (hx : x ≠ a.getD i 0) :
    checksum (a.set i x) ≠ checksum a := by
  have hset : a.set i x = a.take i ++ x :: a.drop (i + 1) := List.set_eq_take_cons_drop x hi
  have hold : a = a.take i ++ a.getD i 0 :: a.drop (i + 1) := by
    rw [List.getD_eq_getElem _ _ hi, ← List.drop_eq_getElem_cons hi, List.take_append_drop]
  intro heq
  rw [hset, checksum_append, checksum_cons] at heq
  conv_rhs at heq => rw [hold, checksum_append, checksum_cons]
  exact hx (zeroExtend_injective (by simpa using heq))

/-- Two bytes with the same sum contribute the same to the checksum, wherever they stand. -/
theorem checksum_two_changes (p q r : List Byte) {x y x' y' : Byte} (h : x.toNat + y.toNat = x'.toNat + y'.toNat) :
    checksum (p ++ x :: q ++ y :: r) = checksum (p ++ x' :: q ++ y' :: r) := by
  apply BitVec.eq_of_toNat_eq
  simp only [checksum_toNat, List.map_append, List.map_cons, List.sum_append, List.sum_cons]
  omega

/-- Settles O2: each law by the sum's own algebra; one changed byte changes a single summand. -/
theorem checksumLaws : Obligations.ChecksumLaws :=
  ⟨checksum_append, fun _ _ => checksum_perm, fun _ _ _ => checksum_set_ne,
    fun p q r _ _ _ _ => checksum_two_changes p q r⟩

/-! ## Made frames -/

/-- R114: a made frame is the encoding of its four fields, so it decodes to them. -/
theorem decodeFrame_makeFrame {tag : List Byte} (p1 p2 : U16) (h : tag.length = 4) :
    decodeFrame (makeFrame tag p1 p2) = ⟨tag, p1, p2, checksum (tag ++ le16 p1 ++ le16 p2)⟩ :=
  decodeFrame_encodeFrame (f := ⟨tag, p1, p2, checksum (tag ++ le16 p1 ++ le16 p2)⟩) h

/-- R106, R115: a track block carries the checksum of its bytes behind them. -/
theorem rd16_makeTrack (bytes : List Byte) : rd16 (makeTrack bytes) bytes.length = checksum bytes :=
  rd16_last bytes (checksum bytes)

theorem take_makeTrack (bytes : List Byte) : (makeTrack bytes).take bytes.length = bytes := by simp [makeTrack]

theorem wellChecked_makeFrame {tag : List Byte} (p1 p2 : U16) (h : tag.length = 4) :
    wellChecked (makeFrame tag p1 p2) = true := by
  have hlen : (tag ++ le16 p1 ++ le16 p2).length = 8 := by simp [h]
  rw [wellChecked_iff, ← hlen, makeFrame, take_makeTrack, rd16_makeTrack]

/-- Settles O4: a made frame is the encoding of its fields, and its last field is the checksum of what precedes it. -/
theorem madeFramesAreWellChecked : Obligations.MadeFramesAreWellChecked := by
  intro tag p1 p2 h
  exact ⟨by rw [length_makeFrame, h], wellChecked_makeFrame p1 p2 h, decodeFrame_makeFrame p1 p2 h⟩

/-! ## Decoding what was encoded -/

/-- A made frame passes the checks on length and checksum, so its fields decide its reading (R122). -/
theorem decodeChecked_makeFrame (read : Frame → Except Reject Instr) {tag : List Byte} (p1 p2 : U16)
    (h : tag.length = 4) :
    decodeChecked read (makeFrame tag p1 p2) = read ⟨tag, p1, p2, checksum (tag ++ le16 p1 ++ le16 p2)⟩ := by
  rw [decodeChecked_of_checksum_eq read (by rw [length_makeFrame, h])
    (wellChecked_iff.1 (wellChecked_makeFrame p1 p2 h)), decodeFrame_makeFrame p1 p2 h]

/-- R5: a block that fits has a length of sixteen bits. -/
theorem toNat_ofNat_length {p : Params} {bytes : List Byte} (hp : p.wf = true) (hfit : blockFits p bytes = true) :
    (BitVec.ofNat 16 bytes.length).toNat = bytes.length := by
  simp only [Params.wf, Bool.and_eq_true, decide_eq_true_eq] at hp
  simp only [blockFits, decide_eq_true_eq] at hfit
  rw [BitVec.toNat_ofNat, Nat.mod_eq_of_lt (by omega)]

theorem decodeTrack_makeTrack {len : U16} {bytes : List Byte} (hlen : len.toNat = bytes.length) :
    decodeTrack len (makeTrack bytes) = .ok (.track bytes) := by
  rw [decodeTrack, hlen, if_neg (not_not.2 (length_makeTrack bytes)), rd16_makeTrack, take_makeTrack, if_pos rfl]

theorem decodeData_append_le16 {len : U16} {payload : List Byte} (k : U16) (hlen : len.toNat = payload.length) :
    decodeData len (payload ++ le16 k) = .ok (.data payload k) := by
  have hlength : (payload ++ le16 k).length = payload.length + 2 := by simp
  rw [decodeData, hlen, if_neg (not_not.2 hlength), rd16_last, List.take_left]

/-- Settles O5, row by row: a frame's fields decide its reading, and a block is cut at its length. -/
theorem decodeEncodeEveryInstruction : Obligations.DecodeEncodeEveryInstruction := by
  intro p i hp hwf
  cases i with
  | stat sel hl trk =>
    rw [encode, Instr.ctx, decode, decodeChecked_makeFrame _ _ _ rfl, decodeCommand_of_tagSTAT rfl, statParam1_sel,
      statParam1_hl]
  | read drv trk len =>
    rw [encode, Instr.ctx, decode, decodeChecked_makeFrame _ _ _ rfl, decodeCommand_of_tagREAD rfl, trackParam1_drv,
      trackParam1_trk]
  | writ drv trk len =>
    rw [encode, Instr.ctx, decode, decodeChecked_makeFrame _ _ _ rfl, decodeCommand_of_tagWRIT rfl, trackParam1_drv,
      trackParam1_trk]
  | statResp map =>
    rw [encode, Instr.ctx, decode, decodeChecked_makeFrame _ _ _ rfl]
    rfl
  | writRdy r =>
    rw [encode, Instr.ctx, decode, decodeChecked_makeFrame _ _ _ rfl]
    cases r <;> rfl
  | wsta o =>
    rw [encode, Instr.ctx, decode, decodeChecked_makeFrame _ _ _ rfl]
    cases o <;> rfl
  | track bytes => exact decodeTrack_makeTrack (toNat_ofNat_length hp hwf)
  | data payload k => exact decodeData_append_le16 k (toNat_ofNat_length hp hwf)

/-! ## Encoding what was decoded -/

/-- A u16 is its upper four bits and its lower twelve. -/
theorem append_extract_drv_trk (v : U16) : (v.extractLsb' 12 4 ++ v.extractLsb' 0 12 : BitVec (4 + 12)) = v := by
  ext i hi
  rw [BitVec.getElem_append]
  split
  · simp [BitVec.getLsbD_eq_getElem hi]
  · simp [show 12 + (i - 12) = i by omega, BitVec.getLsbD_eq_getElem hi]

/-- R106, R114: a well-checked frame is the one made from its own tag and parameters. -/
theorem makeFrame_decodeFrame {bs : List Byte} (hlen : bs.length = 10) (hsum : checksum (bs.take 8) = rd16 bs 8) :
    makeFrame (decodeFrame bs).tag (decodeFrame bs).param1 (decodeFrame bs).param2 = bs := by
  rw [makeFrame, makeTrack, decodeFrame, take_append_le16_rd16 bs (by omega), take_append_le16_rd16 bs (by omega), hsum,
    take_append_le16_rd16 bs (by omega), List.take_of_length_le (by omega)]

/-- R122: what passes the decoder of frames is ten bytes, well-checked, and read by its fields. -/
theorem decodeChecked_eq_ok {read : Frame → Except Reject Instr} {bs : List Byte} {i : Instr}
    (h : decodeChecked read bs = .ok i) :
    bs.length = 10 ∧ checksum (bs.take 8) = rd16 bs 8 ∧ read (decodeFrame bs) = .ok i := by
  rw [decodeChecked] at h
  split_ifs at h with hlen hsum
  exact ⟨not_not.1 hlen, wellChecked_iff.1 hsum, h⟩

/-- R123: a command is read from one of the three tags, and is refused for its tag only. -/
theorem decodeCommand_cases (f : Frame) :
    (f.tag = tagSTAT ∧
      decodeCommand f = .ok (.stat (f.param1.extractLsb' 0 8) (f.param1.extractLsb' 8 8) f.param2)) ∨
    (f.tag = tagREAD ∧
      decodeCommand f = .ok (.read (f.param1.extractLsb' 12 4) (f.param1.extractLsb' 0 12) f.param2)) ∨
    (f.tag = tagWRIT ∧
      decodeCommand f = .ok (.writ (f.param1.extractLsb' 12 4) (f.param1.extractLsb' 0 12) f.param2)) ∨
    decodeCommand f = .error .unknownCommand := by
  by_cases hstat : f.tag = tagSTAT
  · exact .inl ⟨hstat, decodeCommand_of_tagSTAT hstat⟩
  by_cases hread : f.tag = tagREAD
  · exact .inr (.inl ⟨hread, decodeCommand_of_tagREAD hread⟩)
  by_cases hwrit : f.tag = tagWRIT
  · exact .inr (.inr (.inl ⟨hwrit, decodeCommand_of_tagWRIT hwrit⟩))
  · exact .inr (.inr (.inr (decodeCommand_of_other_tag hstat hread hwrit)))

/-- A command's encoding is the frame made from the fields it was read from. -/
theorem encode_of_decodeCommand {f : Frame} {i : Instr} (h : decodeCommand f = .ok i) :
    encode i = makeFrame f.tag f.param1 f.param2 ∧ (addressed i).isSome = true := by
  obtain ⟨htag, hi⟩ | ⟨htag, hi⟩ | ⟨htag, hi⟩ | hi := decodeCommand_cases f
  · obtain rfl : _ = i := Except.ok.inj (hi.symm.trans h)
    exact ⟨by rw [encode, statParam1, append_extract, htag], rfl⟩
  · obtain rfl : _ = i := Except.ok.inj (hi.symm.trans h)
    exact ⟨by rw [encode, trackParam1, append_extract_drv_trk, htag], rfl⟩
  · obtain rfl : _ = i := Except.ok.inj (hi.symm.trans h)
    exact ⟨by rw [encode, trackParam1, append_extract_drv_trk, htag], rfl⟩
  · cases hi.symm.trans h

/-- Settles O6: an accepted frame is the one made from its fields, and so is the encoding of the command read from
them. -/
theorem receivedFramesHaveOneReading : Obligations.ReceivedFramesHaveOneReading := by
  intro bs i h
  obtain ⟨hlen, hsum, hread⟩ := decodeChecked_eq_ok h
  obtain ⟨hencode, haddressed⟩ := encode_of_decodeCommand hread
  exact ⟨hencode.trans (makeFrame_decodeFrame hlen hsum), haddressed⟩

/-- Settles O8: each word passes the checksum, and its tag and fields give the operands. -/
theorem opcodeWordsOfTheSpec : Obligations.OpcodeWordsOfTheSpec := by
  refine ⟨?_, ?_, ?_, ?_⟩ <;> rfl

end Sys2Proof

namespace Sys2Proof.Machine

open Sys2Proof.Claims

/-! ## The store offset -/

/-- R54, R55: twelve bits times sixteen fit in twenty-eight. -/
theorem offsetOf_lt (trk : BitVec 12) (len : U16) : offsetOf trk len < 2 ^ 28 := by
  calc trk.toNat * len.toNat < 2 ^ 12 * 2 ^ 16 := Nat.mul_lt_mul'' trk.isLt len.isLt
    _ = 2 ^ 28 := by norm_num

theorem toNat_trackOffset (trk : BitVec 12) (len : U16) : (trackOffset trk len).toNat = offsetOf trk len := by
  have hlt : trk.toNat * len.toNat < 2 ^ 28 := offsetOf_lt trk len
  have htrk : (trk.zeroExtend 32).toNat = trk.toNat := BitVec.toNat_setWidth_of_le (by decide)
  have hlen : (len.zeroExtend 32).toNat = len.toNat := BitVec.toNat_setWidth_of_le (by decide)
  rw [trackOffset, BitVec.toNat_mul, htrk, hlen, Nat.mod_eq_of_lt (by omega), offsetOf]

/-- Settles O9: the product of the operands is below 2^28, so the 32-bit product is exact. -/
theorem offsetNeverOverflows : Obligations.OffsetNeverOverflows := fun trk len =>
  ⟨toNat_trackOffset trk len, toNat_trackOffset trk len ▸ offsetOf_lt trk len⟩

end Sys2Proof.Machine
end

section
/-! PROOF. A step that is a given agent's turn (60_exceptions.md R238, R240), and what each event does: the frame bytes and
the dispatch (40_checksum_codec.md, 41_dispatcher.md), the timer, the link, STATUS and reset. -/

namespace Sys2Proof.Machine

open Sys2Proof.Claims

/-! ## A step that is an event's -/

/-- The state whose turn it is differs from the state only in its list of turns. -/
theorem eq_with_turns_of_eventNext {e : Event} {s u : State} (h : EventNext e s u) :
    ∃ ts, u = { s with turns := ts } := by
  obtain ⟨⟨rest, -, rfl⟩, -, -⟩ := h
  exact ⟨rest, rfl⟩

/-- R240: with no held request due, the head of the list of turns says whose step it is. -/
theorem takeTurn_of_eventNext {e : Event} {s u : State} (h : EventNext e s u) : takeTurn s = (e, u) := by
  obtain ⟨⟨rest, hturns, rfl⟩, hheld, -⟩ := h
  have hdue : s.heldDue = false := heldDue_eq_false hheld
  cases e <;> simp [takeTurn, hturns, hdue]

theorem step_of_takeTurn {s u : State} {e : Event} (hturn : takeTurn s = (e, u)) (hshape : u.shapeFault = none) :
    step s = runEvent e u := by
  rw [step, hturn, runTurn]
  split
  · rename_i he
    rw [show e = .reset from he]
    rfl
  · rw [hshape]

/-- R240: a step on an event's turn is that event. -/
theorem step_of_eventNext {e : Event} {s u : State} (h : EventNext e s u) : step s = runEvent e u := by
  refine step_of_takeTurn (takeTurn_of_eventNext h) ?_
  obtain ⟨⟨rest, -, rfl⟩, -, hshape⟩ := h
  exact hshape

/-! ## The engine in AWAIT_FRAME (R107, R108) -/

theorem engineTurn_of_awaitFrame {s : State} (hlink : s.linkOpen = true) (hstate : s.engState = .awaitFrame) :
    engineTurn s = .next (takeFrameByte s) := by
  rw [engineTurn, if_pos hlink, hstate]

theorem takeFrameByte_of_rx_nil {s : State} (hrx : s.rx = []) : takeFrameByte s = s := by
  rw [takeFrameByte, hrx]

/-- R22, R120: while the engine waits for a frame, FB has room for its next byte. -/
theorem fbCnt_le_of_awaitFrame {s : State} (hshape : s.shapeFault = none) (hstate : s.engState = .awaitFrame) :
    s.fbCnt ≤ 9 := by
  obtain ⟨-, -, hcount, -⟩ := shapeFault_eq_none.1 hshape
  simpa [frameCountOK, hstate] using hcount

/-- R107: the byte goes to index FB_CNT of FB, which keeps its other bytes. -/
theorem toList_setIfInBounds {fb : Vector Byte 10} {i : Nat} (x : Byte) (hi : i < 10) :
    (fb.setIfInBounds i x).toList = fb.toList.take i ++ x :: fb.toList.drop (i + 1) := by
  rw [Vector.toList_setIfInBounds, List.set_eq_take_cons_drop x (by simpa using hi)]

/-- R107: what a frame byte step writes; the tenth byte leads to DISPATCH. -/
theorem takeFrameByte_of_rx_cons {s : State} {x : Byte} {rest : List Byte} (hstate : s.engState = .awaitFrame)
    (hrx : s.rx = x :: rest) :
    takeFrameByte s = { s with
      rx := rest, fb := s.fb.setIfInBounds s.fbCnt x, fbCnt := s.fbCnt + 1
      engState := if s.fbCnt = 9 then .dispatch else .awaitFrame } := by
  have hlast : s.fbCnt + 1 = 10 ↔ s.fbCnt = 9 := by omega
  simp only [takeFrameByte, hrx, hlast, hstate]

/-- A step on the engine's turn in AWAIT_FRAME takes a frame byte. -/
theorem step_of_engineNext_awaitFrame {s u : State} (h : EngineNext s u) (hstate : s.engState = .awaitFrame) :
    step s = .next (takeFrameByte u) := by
  obtain ⟨hturn, hlink⟩ := h
  rw [step_of_engineTurn hturn]
  obtain ⟨ts, rfl⟩ := eq_with_turns_of_engineTurn hturn
  exact engineTurn_of_awaitFrame hlink hstate

/-- Settles O12: the step takes a frame byte of the state whose turn it is. -/
theorem frameByteStep : Obligations.FrameByteStep := by
  intro s u hnext hstate
  have ⟨⟨_, _, hshape⟩, _⟩ := hnext
  have hfb : s.fbCnt < 10 := Nat.lt_succ_of_le (fbCnt_le_of_awaitFrame hshape hstate)
  rw [step_of_engineNext_awaitFrame hnext hstate]
  obtain ⟨ts, rfl⟩ := eq_with_turns_of_engineTurn hnext.1
  refine ⟨fun hrx => congrArg Host.Outcome.next (takeFrameByte_of_rx_nil hrx), fun x rest hrx => ?_⟩
  exact ⟨s.fb.setIfInBounds s.fbCnt x, toList_setIfInBounds x hfb,
    congrArg Host.Outcome.next (takeFrameByte_of_rx_cons hstate hrx)⟩

/-! ## The engine in DISPATCH and WRIT_COMMIT (R122, R189) -/

theorem engineTurn_of_dispatch {s : State} (hlink : s.linkOpen = true) (hstate : s.engState = .dispatch) :
    engineTurn s = dispatchStep s := by
  rw [engineTurn, if_pos hlink, hstate]

theorem engineTurn_of_writCommit {s : State} (hlink : s.linkOpen = true) (hstate : s.engState = .writCommit) :
    engineTurn s = commitStep s := by
  rw [engineTurn, if_pos hlink, hstate]

/-- A step on the engine's turn in DISPATCH is the dispatch step. -/
theorem step_of_engineNext_dispatch {s u : State} (h : EngineNext s u) (hstate : s.engState = .dispatch) :
    step s = dispatchStep u := by
  obtain ⟨hturn, hlink⟩ := h
  rw [step_of_engineTurn hturn]
  obtain ⟨ts, rfl⟩ := eq_with_turns_of_engineTurn hturn
  exact engineTurn_of_dispatch hlink hstate

/-- A step on the engine's turn in WRIT_COMMIT is the commit step. -/
theorem step_of_engineNext_writCommit {s u : State} (h : EngineNext s u) (hstate : s.engState = .writCommit) :
    step s = commitStep u := by
  obtain ⟨hturn, hlink⟩ := h
  rw [step_of_engineTurn hturn]
  obtain ⟨ts, rfl⟩ := eq_with_turns_of_engineTurn hturn
  exact engineTurn_of_writCommit hlink hstate

theorem dispatchStep_of_ok {s : State} {i : Instr} (h : decode .rxFrame s.fb.toList = .ok i) :
    dispatchStep s = exec i s := by
  rw [dispatchStep, h]

theorem dispatchStep_of_frameChecksum {s : State} (h : decode .rxFrame s.fb.toList = .error .frameChecksum) :
    dispatchStep s = .next (drop .frameChecksum s) := by
  rw [dispatchStep, h]

theorem dispatchStep_of_unknownCommand {s : State} (h : decode .rxFrame s.fb.toList = .error .unknownCommand) :
    dispatchStep s = .next (drop .unknownCommand s) := by
  rw [dispatchStep, h]

theorem commitStep_of_ok {s : State} {i : Instr}
    (h : decode (.rxBlock s.cmdLen) (s.tb.take (s.cmdLen.toNat + 2)) = .ok i) : commitStep s = exec i s := by
  rw [commitStep, h]

/-- Settles O10: in either state the engine's one step decodes what was received and runs it. -/
theorem stepRunsTheDecodedInstruction : Obligations.StepRunsTheDecodedInstruction := by
  constructor
  · intro s u i hnext hstate hdecode
    rw [step_of_engineNext_dispatch hnext hstate]
    obtain ⟨ts, rfl⟩ := eq_with_turns_of_engineTurn hnext.1
    exact dispatchStep_of_ok hdecode
  · intro s u i hnext hstate hdecode
    rw [step_of_engineNext_writCommit hnext hstate]
    obtain ⟨ts, rfl⟩ := eq_with_turns_of_engineTurn hnext.1
    exact commitStep_of_ok hdecode

/-- Settles O11: the reading of the ten bytes in FB, by the checksum and then by the tag, decides the diagnostic of the
drop. -/
theorem rejectedFramesAreDropped : Obligations.RejectedFramesAreDropped := by
  intro s u hnext hstate
  obtain ⟨hbad, hgood⟩ := receivedFrameReading s.fb.toList (by simp)
  rw [step_of_engineNext_dispatch hnext hstate]
  obtain ⟨ts, rfl⟩ := eq_with_turns_of_engineTurn hnext.1
  refine ⟨fun hsum => dispatchStep_of_frameChecksum (hbad hsum), fun hsum hstat hread hwrit => ?_⟩
  obtain ⟨-, -, -, hother⟩ := hgood hsum
  exact dispatchStep_of_unknownCommand (hother hstat hread hwrit)

/-! ## The timer (R109, R110, R134) -/

/-- Settles O38: in AWAIT_FRAME the count is at most 9, so the deadline finds a partial frame. -/
theorem frameDeadlineDiscardsAPartialFrame : Obligations.FrameDeadlineDiscardsAPartialFrame := by
  intro s u h hstate hcnt
  have ⟨_, _, hshape⟩ := h
  have hle : s.fbCnt ≤ 9 := fbCnt_le_of_awaitFrame hshape hstate
  rw [step_of_eventNext h]
  obtain ⟨ts, rfl⟩ := eq_with_turns_of_eventNext h
  exact congrArg Host.Outcome.next (if_pos ⟨hstate, hcnt, hle⟩)

/-- Settles O39: neither timeout's condition holds. -/
theorem eventsElsewhereDoNothing : Obligations.EventsElsewhereDoNothing := by
  constructor
  · intro s u h hno
    rw [step_of_eventNext h]
    obtain ⟨ts, rfl⟩ := eq_with_turns_of_eventNext h
    refine congrArg Host.Outcome.next (if_neg ?_)
    rintro ⟨hstate, hcnt, -⟩
    exact hno.elim (fun hne => hne hstate) (Nat.ne_of_gt hcnt)
  · intro s u h hno
    rw [step_of_eventNext h]
    obtain ⟨ts, rfl⟩ := eq_with_turns_of_eventNext h
    exact congrArg Host.Outcome.next (if_neg hno)

/-! ## STATUS, the link, reset -/

/-- Settles O37: the snapshot holds the state's own fields. -/
theorem statusReadsWithoutSideEffect : Obligations.StatusReadsWithoutSideEffect := by
  intro s u h
  rw [step_of_eventNext h]
  obtain ⟨ts, rfl⟩ := eq_with_turns_of_eventNext h
  exact ⟨s.status, rfl, rfl, rfl, rfl, rfl, rfl, rfl, rfl⟩

theorem takeTurn_of_linkDown {s : State} {rest : List Event} (h : s.turns = .linkDown :: rest) :
    takeTurn s = (.linkDown, { s with turns := rest }) := by
  rw [takeTurn, h]

theorem takeTurn_of_reset {s : State} {rest : List Event} (h : s.turns = .reset :: rest) :
    takeTurn s = (.reset, { s with turns := rest }) := by
  rw [takeTurn, h]

/-- 70 R265: the engine takes no step while the link is closed. -/
theorem engineTurn_of_closed {s : State} (hlink : s.linkOpen = false) : engineTurn s = .next s := by
  rw [engineTurn, if_neg (by simp [hlink])]

/-- Settles O40: closing clears the counts and the engine's state; behind a closed link no byte comes and no step is
taken. -/
theorem linkCloseAbandonsTheCommand : Obligations.LinkCloseAbandonsTheCommand := by
  refine ⟨fun s rest hturns hshape hlink => ?_, fun s u h hlink => ?_, fun s u b h => ?_⟩
  · rw [step_of_takeTurn (takeTurn_of_linkDown hturns) hshape]
    exact congrArg Host.Outcome.next (if_pos hlink)
  · rw [step_of_engineTurn h]
    obtain ⟨ts, rfl⟩ := eq_with_turns_of_engineTurn h
    exact engineTurn_of_closed hlink
  · rw [step_of_eventNext h]
    obtain ⟨ts, rfl⟩ := eq_with_turns_of_eventNext h
    rfl

/-- R255: behind a closed link the engine waits for byte 0 of a frame. -/
theorem awaitFrame_of_closed {s : State} (hshape : s.shapeFault = none) (hlink : s.linkOpen = false) :
    s.engState = .awaitFrame ∧ s.fbCnt = 0 := by
  obtain ⟨-, -, -, -, -, hok, -⟩ := shapeFault_eq_none.1 hshape
  simpa [linkOK, hlink] using hok

/-- Settles O41: the event sets the level only, and the state's shape says where the engine is. -/
theorem linkOpensOnAnEmptyFrame : Obligations.LinkOpensOnAnEmptyFrame := by
  intro s u h hlink
  have ⟨_, _, hshape⟩ := h
  exact ⟨step_of_eventNext h, awaitFrame_of_closed hshape hlink⟩

/-- A table of empty slots has an empty slot at every index. -/
theorem slot_of_replicate {s : State} {n : Nat} (h : s.dt = List.replicate n .empty) (d : Nat) : s.slot d = .empty := by
  rw [State.slot, h, List.getD_eq_getElem?_getD, List.getElem?_replicate]
  split <;> rfl

/-- Settles O42: reset comes before the check of the shape, and writes the block's own fields. -/
theorem resetActsInAnyState : Obligations.ResetActsInAnyState := by
  intro s rest hturns
  refine ⟨resetBlock { s with turns := rest }, ?_, rfl, rfl, rfl, ?_, ?_, slot_of_replicate rfl, rfl, rfl, rfl, rfl, rfl,
    rfl, rfl, rfl, rfl, rfl, rfl, rfl, rfl, rfl, rfl, rfl⟩
  · rw [step, takeTurn_of_reset hturns, runTurn, if_pos rfl]
  · exact List.length_replicate
  · exact List.length_replicate

/-- Settles O43: every slot of the reset state is empty, and its other fields are the reset values. -/
theorem resetLeavesTheEngineWaiting : Obligations.ResetLeavesTheEngineWaiting := by
  refine ⟨rfl, rfl, rfl, rfl, fun d => ?_, rfl, rfl, rfl, rfl, rfl⟩
  rw [slot_of_replicate (s := State.reset) rfl d]
  exact ⟨rfl, rfl, rfl, rfl⟩

/-- Settles O53: with no held request the turn is the engine's, which waits, the link open or closed. -/
theorem quiescentBlockStays : Obligations.QuiescentBlockStays := by
  rintro s ⟨hstate, -, hrx, hpend⟩ hturns hshape
  have hturn : EngineTurn s s := ⟨.inl ⟨hturns, rfl⟩, by simp [hpend], hshape⟩
  rw [step_of_engineTurn hturn]
  cases hlink : s.linkOpen with
  | false => exact engineTurn_of_closed hlink
  | true => rw [engineTurn_of_awaitFrame hlink hstate, takeFrameByte_of_rx_nil hrx]

end Sys2Proof.Machine
end

section
/-! PROOF. The operator's requests (45_drive_table.md): what MOUNT and UNMOUNT do to the table and the files, and when a
request is performed or held (R216). -/

namespace Sys2Proof.Machine

open Sys2Proof.Claims

/-! ## MOUNT and UNMOUNT as operations -/

theorem performRequest_of_refused {r : OpRequest} {s : State} (h : r.accepted s.params = false) :
    performRequest r s = s := if_neg (by simp [h])

theorem performRequest_mount {d : Nat} (h : Handle) (size : U64) {s : State} (hd : d < s.params.nDrives) :
    performRequest (.mount d h size) s = { s with
      dt := s.dt.modify d fun x => mountSlot s.params.tiers h size (unmountSlot x)
      files := openFile h size s.files
      storePos := s.storePos.set d 0 } :=
  if_pos (decide_eq_true hd)

theorem performRequest_unmount {d : Nat} {s : State} (hd : d < s.params.nDrives) :
    performRequest (.unmount d) s = { s with dt := s.dt.modify d unmountSlot } :=
  if_pos (decide_eq_true hd)

theorem slot_performRequest_mount {d : Nat} (h : Handle) (size : U64) {s : State} (hd : d < s.params.nDrives)
    (j : Nat) : (performRequest (.mount d h size) s).slot j =
      if d = j ∧ j < s.dt.length then mountSlot s.params.tiers h size (unmountSlot (s.slot j)) else s.slot j := by
  rw [performRequest_mount h size hd]
  exact getD_modify s.dt d j _ .empty

theorem slot_performRequest_unmount {d : Nat} {s : State} (hd : d < s.params.nDrives) (j : Nat) :
    (performRequest (.unmount d) s).slot j =
      if d = j ∧ j < s.dt.length then unmountSlot (s.slot j) else s.slot j := by
  rw [performRequest_unmount hd]
  exact getD_modify s.dt d j _ .empty

@[simp] theorem length_dt_performRequest (r : OpRequest) (s : State) :
    (performRequest r s).dt.length = s.dt.length := by
  unfold performRequest
  split
  · cases r <;> simp
  · rfl

theorem unmountSlot_of_unmounted {x : Slot} (h : x.mounted = false) : unmountSlot x = x := if_neg (by simp [h])

theorem unmountSlot_of_mounted {x : Slot} (h : x.mounted = true) : unmountSlot x = .empty := if_pos h

@[simp] theorem unmountSlot_mounted (x : Slot) : (unmountSlot x).mounted = false := by
  cases h : x.mounted with
  | true => rw [unmountSlot_of_mounted h]; rfl
  | false => rw [unmountSlot_of_unmounted h, h]

@[simp] theorem unmountSlot_unmountSlot (x : Slot) : unmountSlot (unmountSlot x) = unmountSlot x :=
  unmountSlot_of_unmounted (unmountSlot_mounted x)

/-! ## The files a MOUNT opens -/

/-- Log 7: a MOUNT keeps every file the state lists. -/
theorem kvGet_openFile_of_some {files : List (Handle × File)} {h' : Handle} {f : File} (h : Handle) (size : U64)
    (hf : kvGet files h' = some f) : kvGet (openFile h size files) h' = some f := by
  unfold openFile
  split
  · exact hf
  · rename_i hnone
    have hne : h' ≠ h := fun heq => by simp [heq, hnone] at hf
    rw [kvGet_kvPut_other files _ hne, hf]

theorem kvGet_openFile_isSome (h : Handle) (size : U64) (files : List (Handle × File)) :
    (kvGet (openFile h size files) h).isSome = true := by
  unfold openFile
  split
  · rename_i f hsome
    rw [hsome]
    rfl
  · rw [kvGet_kvPut_same]
    rfl

theorem keysRising_openFile (h : Handle) (size : U64) {files : List (Handle × File)} (hk : keysRising files = true) :
    keysRising (openFile h size files) = true := by
  unfold openFile
  split
  · exact hk
  · exact keysRising_kvPut h _ hk

theorem mem_openFile {h : Handle} {size : U64} {files : List (Handle × File)} {c : Handle × File}
    (hc : c ∈ openFile h size files) : c = (h, File.blank size.toNat) ∨ c ∈ files := by
  unfold openFile at hc
  split at hc
  · exact .inr hc
  · exact mem_kvPut hc

/-- A listed file that stays listed keeps its bytes. -/
theorem storeByte_of_kvGet {s t : State} {h : Handle} {a : Nat} {b : Byte}
    (hfiles : ∀ f, kvGet s.files h = some f → kvGet t.files h = some f) (hb : s.storeByte h a = some b) :
    t.storeByte h a = some b := by
  obtain ⟨f, hf, hbyte⟩ := Option.bind_eq_some_iff.1 hb
  exact Option.bind_eq_some_iff.2 ⟨f, hfiles f hf, hbyte⟩

/-- Log 7: no request changes a byte of a file the state lists. -/
theorem storeByte_performRequest (r : OpRequest) {s : State} {h : Handle} {a : Nat} {b : Byte}
    (hb : s.storeByte h a = some b) : (performRequest r s).storeByte h a = some b := by
  unfold performRequest
  split
  · cases r with
    | mount d h' size => exact storeByte_of_kvGet (fun _ => kvGet_openFile_of_some h' size) hb
    | unmount d => exact hb
  · exact hb

/-! ## When a request is performed (R216) -/

theorem operatorRequest_of_held {s : State} (r : OpRequest) (h : s.opPend.isSome = true) : operatorRequest r s = s :=
  if_pos h

theorem operatorRequest_of_awaitFrame {s : State} (r : OpRequest) (hpend : s.opPend = none)
    (hstate : s.engState = .awaitFrame) : operatorRequest r s = performRequest r s := by
  rw [operatorRequest, if_neg (by simp [hpend]), if_pos hstate]

theorem operatorRequest_of_not_awaitFrame {s : State} (r : OpRequest) (hstate : s.engState ≠ .awaitFrame) :
    operatorRequest r s =
      if s.opPend = none ∧ r.accepted s.params = true then { s with opPend := some r } else s := by
  rw [operatorRequest, if_neg hstate]
  cases s.opPend <;> simp

theorem performHeld_of_awaitFrame {s : State} {r : OpRequest} (hpend : s.opPend = some r)
    (hstate : s.engState = .awaitFrame) : performHeld s = performRequest r { s with opPend := none } := by
  rw [performHeld, hpend]
  exact if_pos hstate

theorem performHeld_of_none {s : State} (hpend : s.opPend = none) : performHeld s = s := by
  rw [performHeld, hpend]

theorem performHeld_of_not_awaitFrame {s : State} (hstate : s.engState ≠ .awaitFrame) : performHeld s = s := by
  unfold performHeld
  split
  · exact if_neg hstate
  · rfl

/-- A refused request changes nothing, whenever it is made. -/
theorem operatorRequest_of_refused {s : State} {r : OpRequest} (h : r.accepted s.params = false) :
    operatorRequest r s = s := by
  unfold operatorRequest
  split_ifs with _ _ haccepted
  · rfl
  · exact performRequest_of_refused h
  · simp [h] at haccepted
  · rfl

/-- R216: a request made in AWAIT_FRAME, where none can be held, is performed in that step. -/
theorem step_of_request_awaitFrame {s u : State} {r : OpRequest} (h : EventNext (.request r) s u)
    (hstate : s.engState = .awaitFrame) : step s = .next (performRequest r u) := by
  have ⟨_, hdue, _⟩ := h
  have hpend : s.opPend = none := by simpa [hstate] using hdue
  rw [step_of_eventNext h]
  obtain ⟨ts, rfl⟩ := eq_with_turns_of_eventNext h
  exact congrArg Host.Outcome.next (operatorRequest_of_awaitFrame r hpend hstate)

/-- R216, R240: a held request is due at a boundary with AWAIT_FRAME, before all but reset and close. -/
theorem takeTurn_of_heldDue {s : State} (hdue : s.heldDue = true)
    (hturns : ∀ rest, s.turns ≠ .reset :: rest ∧ s.turns ≠ .linkDown :: rest) : takeTurn s = (.performHeld, s) := by
  unfold takeTurn
  split
  · rename_i rest heq
    exact absurd heq (hturns rest).1
  · rename_i rest heq
    exact absurd heq (hturns rest).2
  · rw [if_pos hdue]
  · rw [if_pos hdue]

/-- Settles O36: outside AWAIT_FRAME the request is held if it can be, and a held one comes first. -/
theorem requestsWaitForTheEndOfACommand : Obligations.RequestsWaitForTheEndOfACommand := by
  refine ⟨fun s u r h hstate => ?_, fun s u r h hrefused => ?_, fun s r hpend hstate hshape hturns => ?_⟩
  · rw [step_of_eventNext h]
    obtain ⟨ts, rfl⟩ := eq_with_turns_of_eventNext h
    exact congrArg Host.Outcome.next (operatorRequest_of_not_awaitFrame r hstate)
  · rw [step_of_eventNext h]
    obtain ⟨ts, rfl⟩ := eq_with_turns_of_eventNext h
    exact congrArg Host.Outcome.next (operatorRequest_of_refused hrefused)
  · have hdue : s.heldDue = true := by simp [State.heldDue, hpend, hstate]
    rw [step_of_takeTurn (takeTurn_of_heldDue hdue hturns) hshape]
    exact congrArg Host.Outcome.next (performHeld_of_awaitFrame hpend hstate)

/-- R215: a mounted slot is emptied before it is mounted, so emptying it first makes no difference. -/
theorem performRequest_mount_unmount (d : Nat) (h : Handle) (size : U64) (s : State) :
    performRequest (.mount d h size) s = performRequest (.mount d h size) (performRequest (.unmount d) s) := by
  by_cases hd : d < s.params.nDrives
  · rw [performRequest_unmount hd, performRequest_mount h size hd,
      performRequest_mount (s := { s with dt := s.dt.modify d unmountSlot }) h size hd]
    simp [List.modify_modify_eq, Function.comp_def]
  · rw [performRequest_of_refused (r := .unmount d) (by simpa [OpRequest.accepted, driveOK] using hd)]

/-- Log 18: UNMOUNT of an unmounted slot modifies it to itself. -/
theorem performRequest_unmount_of_unmounted {d : Nat} {s : State} (h : (s.slot d).mounted = false) :
    performRequest (.unmount d) s = s := by
  by_cases hd : d < s.params.nDrives
  · have hdt : s.dt.modify d unmountSlot = s.dt := by
      refine List.ext_getElem (by simp) fun j _ hj => ?_
      rw [List.getElem_modify]
      split
      · rename_i hdj
        subst hdj
        rw [State.slot, List.getD_eq_getElem _ _ hj] at h
        exact unmountSlot_of_unmounted h
      · rfl
    rw [performRequest_unmount hd, hdt]
  · exact performRequest_of_refused (by simpa [OpRequest.accepted, driveOK] using hd)

/-- Settles O35, from the three facts about when and how a request is performed. -/
theorem remountIsUnmountThenMount : Obligations.RemountIsUnmountThenMount :=
  ⟨fun _ _ _ h _ hstate => step_of_request_awaitFrame h hstate,
    fun s d h size _ => performRequest_mount_unmount d h size s, fun _ _ => performRequest_unmount_of_unmounted⟩

/-- R211: the slot a MOUNT of an unmounted slot leaves. -/
theorem slot_performRequest_mount_same {d : Nat} (h : Handle) (size : U64) {s : State} (hd : d < s.params.nDrives)
    (hlen : s.dt.length = s.params.nDrives) (hmounted : (s.slot d).mounted = false) :
    (performRequest (.mount d h size) s).slot d = mountSlot s.params.tiers h size (s.slot d) := by
  rw [slot_performRequest_mount h size hd, if_pos ⟨rfl, hlen ▸ hd⟩, unmountSlot_of_unmounted hmounted]

/-- Settles O34: the step performs the request, which modifies slot `d` of the table and leaves listed files as they
are. -/
theorem mountAndUnmount : Obligations.MountAndUnmount := by
  intro s u hstate hlen
  refine ⟨fun d h size hd hmounted hnext => ?_, fun d hd hmounted hnext => ?_⟩
  · rw [step_of_request_awaitFrame hnext hstate]
    obtain ⟨ts, rfl⟩ := eq_with_turns_of_eventNext hnext
    have hslot := slot_performRequest_mount_same (s := { s with turns := ts }) h size hd hlen hmounted
    refine ⟨_, rfl, length_dt_performRequest _ _, by rw [hslot]; rfl, by rw [hslot]; rfl, ?_, by rw [hslot]; rfl,
      by rw [hslot]; rfl, by rw [hslot]; rfl, fun j hj => ?_, ?_, fun h' a b hb => storeByte_performRequest _ hb⟩
    · rw [hslot]
      exact BitVec.toNat_ofNat ..
    · rw [slot_performRequest_mount h size (s := { s with turns := ts }) hd, if_neg (fun hdj => hj hdj.1.symm)]
      rfl
    · rw [performRequest_mount h size (s := { s with turns := ts }) hd]
  · refine ⟨s.dt.modify d unmountSlot, ?_, List.length_modify .., fun j hj => ?_⟩
    · rw [step_of_request_awaitFrame hnext hstate]
      obtain ⟨ts, rfl⟩ := eq_with_turns_of_eventNext hnext
      exact congrArg Host.Outcome.next (performRequest_unmount (s := { s with turns := ts }) hd)
    · rw [getD_modify]
      by_cases hdj : j = d
      · subst hdj
        rw [if_pos ⟨rfl, hj⟩, if_pos rfl]
        exact unmountSlot_of_mounted hmounted
      · rw [if_neg (fun h => hdj h.1.symm), if_neg hdj, State.slot]

end Sys2Proof.Machine
end

section
/-! PROOF. The commands and their answers (42_stat.md, 43_read.md, 44_writ.md): the responses written out, the checks READ
and WRIT share, and the store's primitives in each store. -/

namespace Sys2Proof.Machine

open Sys2Proof.Claims

/-! ## The responses, written out (R154, R165, R182, R188) -/

theorem answerReady_notReady_eq (s : State) :
    answerReady .notReady s = { s with tx := s.tx ++ readinessNotReady, fbCnt := 0, engState := .awaitFrame } := rfl

theorem answerReady_ok_eq (s : State) :
    answerReady .ok s = { s with tx := s.tx ++ readinessOK, tbCnt := 0, fbCnt := 0, engState := .writPayload } := rfl

theorem answerTrack_eq (bytes : List Byte) (s : State) :
    answerTrack bytes s = { s with
      tb := bytes ++ le16 (checksum bytes) ++ s.tb.drop (bytes.length + 2)
      tx := s.tx ++ bytes ++ le16 (checksum bytes), fbCnt := 0, engState := .awaitFrame } := by
  rw [List.append_assoc s.tx]
  rfl

/-- Settles O29: the rows' meanings are the answers, whose bytes are those of the table. -/
theorem responseFramesAreEmitted : Obligations.ResponseFramesAreEmitted := fun s =>
  ⟨fun map => congrArg Host.Outcome.next (answerStat_eq map s), rfl, rfl, rfl, rfl, rfl⟩

/-- Settles O30: the row's meaning is the answer, if the block fits TB. -/
theorem trackBlockIsEmitted : Obligations.TrackBlockIsEmitted := fun s bytes => by
  rw [exec, execTrack, sendTrack, answerTrack_eq]

/-- R153: any other index fails the check of R126. -/
theorem statUpdate_of_ge {sel : BitVec 8} {s : State} (hl : BitVec 8) (trk : U16) (h : s.params.nDrives ≤ sel.toNat) :
    statUpdate sel hl trk s = s := if_neg (by simpa [driveOK] using h)

/-- Settles O15: an index past the drives fails the check, so the map is read from the old table. -/
theorem statOfNoDriveAnswersAllTheSame : Obligations.StatOfNoDriveAnswersAllTheSame := by
  intro s sel hl trk hsel
  have hupdate : statUpdate sel hl trk s.bumpStat = s.bumpStat := statUpdate_of_ge hl trk hsel
  refine ⟨s.mountMap, fun i hi => getLsbD_mountMap s hi, ?_⟩
  rw [exec, execStat, hupdate, answerStat_eq]
  rfl

/-! ## The table behind the selection and the new track -/

/-- R127: the selection update writes the flags only. -/
theorem slot_select_keeps (d : Nat) (h : Bool) (s : State) (j : Nat) :
    ((s.select d h).slot j).mounted = (s.slot j).mounted ∧ ((s.select d h).slot j).handle = (s.slot j).handle ∧
      ((s.select d h).slot j).maxTrack = (s.slot j).maxTrack := by
  rw [slot_select]
  split <;> exact ⟨rfl, rfl, rfl⟩

/-- R30: the new track is written to `curTrack` only. -/
theorem slot_setCurTrack_keeps (d : Nat) (t : U16) (s : State) (j : Nat) :
    ((s.setCurTrack d t).slot j).mounted = (s.slot j).mounted ∧
      ((s.setCurTrack d t).slot j).handle = (s.slot j).handle ∧
      ((s.setCurTrack d t).slot j).maxTrack = (s.slot j).maxTrack := by
  rw [slot_setCurTrack]
  split <;> exact ⟨rfl, rfl, rfl⟩

theorem slot_setCurTrack_flags (d : Nat) (t : U16) (s : State) (j : Nat) :
    ((s.setCurTrack d t).slot j).enabled = (s.slot j).enabled ∧
      ((s.setCurTrack d t).slot j).headLoaded = (s.slot j).headLoaded := by
  rw [slot_setCurTrack]
  split <;> exact ⟨rfl, rfl⟩

@[simp] theorem openStore_select (d : Nat) (h : Bool) (s : State) (j : Nat) :
    (s.select d h).openStore j = s.openStore j := by
  obtain ⟨hmounted, hhandle, -⟩ := slot_select_keeps d h s j
  exact openStore_congr hmounted hhandle rfl

@[simp] theorem openStore_setCurTrack (d : Nat) (t : U16) (s : State) (j : Nat) :
    (s.setCurTrack d t).openStore j = s.openStore j := by
  obtain ⟨hmounted, hhandle, -⟩ := slot_setCurTrack_keeps d t s j
  exact openStore_congr hmounted hhandle rfl

/-- R127: the selection update alone. -/
theorem selected_select (d : Nat) (h : Bool) (s : State) : Selected s.dt d h id (s.select d h).dt := by
  refine ⟨by simp, fun j hj => ?_⟩
  rw [select_dt, getD_selectDrive]
  by_cases hjd : j = d
  · subst hjd
    rw [if_pos ⟨rfl, hj⟩, if_pos rfl, id]
  · rw [if_neg (fun h => hjd h.1.symm), if_neg hjd, clearFlags]

/-! ## The checks of READ and WRIT (R161, R181) -/

/-- The checks read `mounted` and `maxTrack` of the slot, and the parameters. -/
theorem trackCheck_congr {s t : State} {d : Nat} (trk : BitVec 12) (len : U16) (hparams : t.params = s.params)
    (hmounted : (t.slot d).mounted = (s.slot d).mounted) (hmax : (t.slot d).maxTrack = (s.slot d).maxTrack) :
    trackCheck d trk len t = trackCheck d trk len s := by
  rw [trackCheck, hparams, hmounted, hmax]
  rfl

@[simp] theorem trackCheck_select (d : Nat) (trk : BitVec 12) (len : U16) (h : Bool) (s : State) :
    trackCheck d trk len (s.select d h) = trackCheck d trk len s := by
  obtain ⟨hmounted, -, hmax⟩ := slot_select_keeps d h s d
  exact trackCheck_congr trk len rfl hmounted hmax

@[simp] theorem trackCheck_bumpRead (d : Nat) (trk : BitVec 12) (len : U16) (s : State) :
    trackCheck d trk len s.bumpRead = trackCheck d trk len s := rfl

@[simp] theorem trackCheck_bumpWrit (d : Nat) (trk : BitVec 12) (len : U16) (s : State) :
    trackCheck d trk len s.bumpWrit = trackCheck d trk len s := rfl

/-- R161: the track is compared as an unsigned number. -/
theorem zeroExtend_gt_iff (trk : BitVec 12) (m : U16) : trk.zeroExtend 16 > m ↔ m.toNat < trk.toNat := by
  rw [gt_iff_lt, BitVec.lt_def, BitVec.toNat_setWidth_of_le (by decide)]

theorem trackCheck_of_fails {s : State} {drv : BitVec 4} {trk : BitVec 12} {len : U16} (h : CheckFails s drv trk len) :
    ∃ c, trackCheck drv.toNat trk len s = some c ∧ diagCode c = checkCode s drv len := by
  unfold trackCheck checkCode
  by_cases hmounted : (s.slot drv.toNat).mounted = false
  · exact ⟨.notMounted, by simp [hmounted], by simp [hmounted, diagCode]⟩
  by_cases hlen : s.params.maxTrackLen < len.toNat
  · exact ⟨.lengthExceeded, by simp [hmounted, hlen], by simp [hmounted, hlen, diagCode]⟩
  · have htrk : (s.slot drv.toNat).maxTrack.toNat < trk.toNat := (h.resolve_left hmounted).resolve_left hlen
    have hgt := (zeroExtend_gt_iff trk _).2 htrk
    refine ⟨.trackRange, ?_, by simp [hmounted, hlen, diagCode]⟩
    rw [if_neg (by simp [hmounted]), if_neg hlen, if_pos hgt]

theorem trackCheck_eq_none_iff {s : State} {drv : BitVec 4} {trk : BitVec 12} {len : U16} :
    trackCheck drv.toNat trk len s = none ↔ ¬CheckFails s drv trk len := by
  constructor
  · intro hnone hfails
    obtain ⟨c, hsome, -⟩ := trackCheck_of_fails hfails
    simp [hnone] at hsome
  · intro h
    simp only [CheckFails, not_or, Bool.not_eq_false] at h
    obtain ⟨hmounted, hlen, htrk⟩ := h
    rw [trackCheck, if_neg (by simp [hmounted]), if_neg hlen, if_neg (mt (zeroExtend_gt_iff trk _).1 htrk)]

/-! ## READ and WRIT up to their checks -/

/-- The state of a command whose checks pass: its drive selected (R127), its `curTrack` set (R30). -/
def State.aimed (drv : BitVec 4) (trk : BitVec 12) (s : State) : State :=
  (s.select drv.toNat true).setCurTrack drv.toNat (trk.zeroExtend 16)

theorem selected_aimed (drv : BitVec 4) (trk : BitVec 12) (s : State) :
    Selected s.dt drv.toNat true (withTrack (trk.zeroExtend 16)) (s.aimed drv trk).dt :=
  selected_select_setCurTrack drv.toNat true (trk.zeroExtend 16) s

section Command

variable {s : State} {drv : BitVec 4} {trk : BitVec 12} {len : U16}

theorem execRead_of_invalid (h : s.params.nDrives ≤ drv.toNat) :
    execRead drv trk len s = .next (drop .invalidDrive s.bumpRead) :=
  if_neg (by simpa [driveOK] using h)

theorem execWrit_of_invalid (h : s.params.nDrives ≤ drv.toNat) :
    execWrit drv trk len s = .next (drop .invalidDrive s.bumpWrit) :=
  if_neg (by simpa [driveOK] using h)

theorem execRead_of_check {c : Diag} (h : drv.toNat < s.params.nDrives)
    (hcheck : trackCheck drv.toNat trk len s = some c) :
    execRead drv trk len s = .next (drop c (s.bumpRead.select drv.toNat true)) := by
  rw [execRead, driveOK, if_pos (decide_eq_true h), trackCheck_select, trackCheck_bumpRead, hcheck]

theorem execWrit_of_check {c : Diag} (h : drv.toNat < s.params.nDrives)
    (hcheck : trackCheck drv.toNat trk len s = some c) :
    execWrit drv trk len s = .next (answerReady .notReady (raiseDiag c (s.bumpWrit.select drv.toNat true))) := by
  rw [execWrit, driveOK, if_pos (decide_eq_true h), trackCheck_select, trackCheck_bumpWrit, hcheck]

theorem execRead_of_pass (h : drv.toNat < s.params.nDrives) (hcheck : trackCheck drv.toNat trk len s = none) :
    execRead drv trk len s = readTrack drv.toNat (trackOffset trk len).toNat len (s.bumpRead.aimed drv trk) := by
  rw [execRead, driveOK, if_pos (decide_eq_true h), trackCheck_select, trackCheck_bumpRead, hcheck]
  rfl

theorem execWrit_of_pass (h : drv.toNat < s.params.nDrives) (hcheck : trackCheck drv.toNat trk len s = none) :
    execWrit drv trk len s = .next (answerReady .ok ((s.bumpWrit.aimed drv trk).latch drv trk len)) := by
  rw [execWrit, driveOK, if_pos (decide_eq_true h), trackCheck_select, trackCheck_bumpWrit, hcheck]
  rfl

end Command

/-- Settles O17: both drop the command before they look at the drive table. -/
theorem invalidDriveIsDropped : Obligations.InvalidDriveIsDropped := fun _ _ _ _ h =>
  ⟨execRead_of_invalid h, execWrit_of_invalid h⟩

/-- Settles O18: the first failing check gives the diagnostic of the drop, behind the selection. -/
theorem readFailedCheckIsDropped : Obligations.ReadFailedCheckIsDropped := by
  intro s drv trk len _ hdrv hfails
  obtain ⟨c, hcheck, hcode⟩ := trackCheck_of_fails hfails
  refine ⟨_, selected_select drv.toNat true s, ?_⟩
  rw [exec, execRead_of_check hdrv hcheck, ← hcode]
  simp [drop, finish, raiseDiag, inc_eq]

/-- Settles O22: the first failing check gives the diagnostic, and the answer is NOT_READY. -/
theorem writNotReadyEndsTheExchange : Obligations.WritNotReadyEndsTheExchange := by
  intro s drv trk len _ hdrv hfails
  obtain ⟨c, hcheck, hcode⟩ := trackCheck_of_fails hfails
  refine ⟨_, selected_select drv.toNat true s, ?_⟩
  rw [exec, execWrit_of_check hdrv hcheck, ← hcode, answerReady_notReady_eq]
  simp [inc_eq]

/-- Settles O23: the checks pass, and the answer is OK behind the latch. -/
theorem writReadyOpensThePayload : Obligations.WritReadyOpensThePayload := by
  intro s drv trk len _ hdrv hpass
  refine ⟨_, selected_aimed drv trk s, ?_⟩
  rw [exec, execWrit_of_pass hdrv (trackCheck_eq_none_iff.2 hpass), answerReady_ok_eq]
  simp [State.aimed, inc_eq]

/-! ## The store's primitives in each store (R57, R58) -/

theorem pos_setPos {d : Nat} (p : Nat) {s : State} (h : d < s.storePos.length) : (s.setPos d p).pos d = p := by
  rw [State.pos, setPos_storePos, List.getD_eq_getElem _ _ (by simpa using h), List.getElem_set_self]

theorem setPos_setPos (d p q : Nat) (s : State) : (s.setPos d p).setPos d q = s.setPos d q := by
  rw [State.setPos, setPos_storePos, List.set_set]
  rfl

theorem storeSeek_reference (d off : Nat) {s : State} (h : s.params.store = .reference) :
    storeSeek d off s = (true, s.setPos d off) := by
  rw [storeSeek, h]

theorem storeSeek_oracle (d off : Nat) {s : State} (h : s.params.store = .oracle) :
    storeSeek d off s =
      (s.peekDraw.seekOk, s.dropDraw.setPos d (if s.peekDraw.seekOk then off else s.peekDraw.seekPos)) := by
  rw [storeSeek, h]

theorem answered_reference {s : State} (h : s.params.store = .reference) : s.answered = s := by
  rw [State.answered, h]

theorem answered_oracle {s : State} (h : s.params.store = .oracle) : s.answered = s.dropDraw := by
  rw [State.answered, h]

theorem storeRead_of_openStore {d n : Nat} {s : State} {h : Handle} {f : File} (sought : Bool)
    (hopen : s.openStore d = some (h, f)) :
    storeRead sought d n s =
      some (s.readBytes sought f d n, s.answered.setPos d (s.pos d + (s.readBytes sought f d n).length)) := by
  rw [storeRead, hopen]

/-- R162 to R165 with an open store: a short read is dropped, a full one that fits TB is sent. -/
theorem readTransfer_of_openStore {d : Nat} {len : U16} {s : State} {h : Handle} {f : File} {bytes : List Byte}
    {sought : Bool} (hopen : s.openStore d = some (h, f)) (hbytes : s.readBytes sought f d len.toNat = bytes)
    (hfit : len.toNat + 2 ≤ s.tb.length) :
    readTransfer sought d len s =
      if bytes.length < len.toNat then .next (drop .shortStoreRead (s.answered.setPos d (s.pos d + bytes.length)))
      else .next (answerTrack bytes (s.answered.setPos d (s.pos d + bytes.length))) := by
  have hle : bytes.length ≤ len.toNat := hbytes ▸ length_readBytes_le sought f d len.toNat s
  have hsend : bytes.length + 2 ≤ (s.answered.setPos d (s.pos d + bytes.length)).tb.length := by
    rw [setPos_tb, answered_tb]
    omega
  rw [readTransfer, storeRead_of_openStore sought hopen, hbytes]
  simp only [sendTrack, if_pos hsend]

end Sys2Proof.Machine
end

section
/-! PROOF. READ of a drive whose checks pass (43_read.md R160 to R165), under the reference store and under any store
within R57. -/

namespace Sys2Proof.Machine

open Sys2Proof.Claims

/-! ## What the invariant gives a command -/

theorem lt_length_storePos {s : State} (hinv : Inv s) {d : Nat} (hd : d < s.params.nDrives) : d < s.storePos.length :=
  hinv.positions ▸ hd

theorem length_tb_of_inv {s : State} (hinv : Inv s) : s.tb.length = s.params.maxTrackLen + 2 := by
  obtain ⟨-, htb, -⟩ := shapeFault_eq_none.1 hinv.shape
  exact htb

/-- R24, R161: a track that passes the checks fits TB. -/
theorem len_fits_of_pass {s : State} {drv : BitVec 4} {trk : BitVec 12} {len : U16} (hinv : Inv s)
    (hpass : ¬CheckFails s drv trk len) : len.toNat + 2 ≤ s.tb.length := by
  have hlen : ¬s.params.maxTrackLen < len.toNat := fun h => hpass (.inr (.inl h))
  have htb : s.tb.length = s.params.maxTrackLen + 2 := length_tb_of_inv hinv
  omega

/-- The file an open store's handle names holds the bytes the handle reads. -/
theorem storeByte_of_openStore {s : State} {d : Nat} {h : Handle} {f : File} (hopen : s.openStore d = some (h, f))
    (a : Nat) : s.storeByte h a = f.byte a := by
  obtain ⟨-, -, hfile⟩ := openStore_eq_some hopen
  rw [State.storeByte, hfile]
  rfl

/-! ## The seek and the read -/

@[simp] theorem aimed_params (drv : BitVec 4) (trk : BitVec 12) (s : State) : (s.aimed drv trk).params = s.params := rfl

@[simp] theorem aimed_tb (drv : BitVec 4) (trk : BitVec 12) (s : State) : (s.aimed drv trk).tb = s.tb := rfl

@[simp] theorem aimed_storePos (drv : BitVec 4) (trk : BitVec 12) (s : State) :
    (s.aimed drv trk).storePos = s.storePos := rfl

@[simp] theorem openStore_aimed (drv : BitVec 4) (trk : BitVec 12) (s : State) (d : Nat) :
    (s.aimed drv trk).openStore d = s.openStore d := by
  rw [State.aimed, openStore_setCurTrack, openStore_select]

@[simp] theorem openStore_bumpRead (s : State) (d : Nat) : s.bumpRead.openStore d = s.openStore d := rfl

/-- R163: whether the seek failed or not, it moved the position of its slot and at most recorded the failure. -/
theorem readSeek_cases (d off : Nat) (s : State) :
    ∃ p, readSeek d off s = s.answered.setPos d p ∨
      readSeek d off s = raiseDiag .seekFailure (s.answered.setPos d p) := by
  obtain ⟨p, hp, -⟩ := storeSeek_snd d off s
  unfold readSeek
  rw [hp]
  split
  · exact ⟨p, .inl rfl⟩
  · exact ⟨p, .inr rfl⟩

@[simp] theorem openStore_readSeek (d off : Nat) (s : State) (j : Nat) :
    (readSeek d off s).openStore j = s.openStore j := by
  obtain ⟨p, h | h⟩ := readSeek_cases d off s <;> rw [h] <;> exact openStore_congr (by simp) (by simp) (by simp)

@[simp] theorem readSeek_tb (d off : Nat) (s : State) : (readSeek d off s).tb = s.tb := by
  obtain ⟨p, h | h⟩ := readSeek_cases d off s <;> simp [h]

/-- READ with an open store, whatever the seek answered: a short read is dropped, a full one is sent. -/
theorem readTrack_of_openStore {d off : Nat} {len : U16} {s : State} {h : Handle} {f : File} {bytes : List Byte}
    (hopen : s.openStore d = some (h, f))
    (hbytes : (readSeek d off s).readBytes (storeSeek d off s).1 f d len.toNat = bytes)
    (hfit : len.toNat + 2 ≤ s.tb.length) :
    readTrack d off len s =
      if bytes.length < len.toNat then
        .next (drop .shortStoreRead ((readSeek d off s).answered.setPos d ((readSeek d off s).pos d + bytes.length)))
      else
        .next (answerTrack bytes ((readSeek d off s).answered.setPos d ((readSeek d off s).pos d + bytes.length))) := by
  rw [readTrack]
  exact readTransfer_of_openStore (by rw [openStore_readSeek, hopen]) hbytes (by rwa [readSeek_tb])

/-! ## The reference store (R58) -/

theorem readSeek_reference (d off : Nat) {s : State} (h : s.params.store = .reference) :
    readSeek d off s = s.setPos d off := by
  rw [readSeek, storeSeek_reference d off h]
  rfl

/-- R58, R160: under the reference store a READ takes the file's bytes from the offset on. -/
theorem readTrack_reference {d off : Nat} {len : U16} {s : State} {h : Handle} {f : File}
    (hstore : s.params.store = .reference) (hopen : s.openStore d = some (h, f)) (hpos : d < s.storePos.length)
    (hfit : len.toNat + 2 ≤ s.tb.length) :
    readTrack d off len s =
      if (f.read off len.toNat).length < len.toNat then
        .next (drop .shortStoreRead (s.setPos d (off + (f.read off len.toNat).length)))
      else .next (answerTrack (f.read off len.toNat) (s.setPos d (off + (f.read off len.toNat).length))) := by
  have hseek : readSeek d off s = s.setPos d off := readSeek_reference d off hstore
  have hpos' : (s.setPos d off).pos d = off := pos_setPos off hpos
  have hbytes : (readSeek d off s).readBytes (storeSeek d off s).1 f d len.toNat = f.read off len.toNat := by
    rw [hseek, storeSeek_reference d off hstore, State.readBytes, if_pos rfl, hpos', State.readCount, setPos_params,
      hstore]
  rw [readTrack_of_openStore hopen hbytes hfit, hseek, answered_reference (s := s.setPos d off) hstore, hpos',
    setPos_setPos]

/-- READ under the reference store from a state of the invariant, its checks passed. -/
theorem execRead_reference {s : State} {drv : BitVec 4} {trk : BitVec 12} {len : U16} {h : Handle} {f : File}
    (hinv : Inv s) (hstore : s.params.store = .reference) (hdrv : drv.toNat < s.params.nDrives)
    (hpass : ¬CheckFails s drv trk len) (hopen : s.openStore drv.toNat = some (h, f)) :
    execRead drv trk len s =
      if (f.read (offsetOf trk len) len.toNat).length < len.toNat then
        .next (drop .shortStoreRead ((s.bumpRead.aimed drv trk).setPos drv.toNat
          (offsetOf trk len + (f.read (offsetOf trk len) len.toNat).length)))
      else .next (answerTrack (f.read (offsetOf trk len) len.toNat) ((s.bumpRead.aimed drv trk).setPos drv.toNat
          (offsetOf trk len + (f.read (offsetOf trk len) len.toNat).length))) := by
  rw [execRead_of_pass hdrv (trackCheck_eq_none_iff.2 hpass), toNat_trackOffset,
    readTrack_reference (s := s.bumpRead.aimed drv trk) hstore (by simpa using hopen)
      (by simpa using lt_length_storePos hinv hdrv) (by simpa using len_fits_of_pass hinv hpass)]

/-- Settles O19: inside the file the read is full. -/
theorem readSendsTheTrack : Obligations.ReadSendsTheTrack := by
  intro s drv trk len h f hinv hstore hdrv hpass hopen hend
  have hlen : (f.read (offsetOf trk len) len.toNat).length = len.toNat := by
    rw [File.length_read]
    omega
  refine ⟨_, f.read (offsetOf trk len) len.toNat, selected_aimed drv trk s, hlen, fun i hi => ?_, ?_⟩
  · rw [storeByte_of_openStore hopen, File.byte_eq_read f (offsetOf trk len) (n := len.toNat) (by omega)]
  · rw [exec, execRead_reference hinv hstore hdrv hpass hopen, if_neg (by omega), answerTrack_eq]
    simp [State.aimed, inc_eq, hlen, -File.length_read]

/-- Settles O20: past the end of the file the read is short, and the position stops at the end or stays behind it. -/
theorem readPastTheEndIsDropped : Obligations.ReadPastTheEndIsDropped := by
  intro s drv trk len h f hinv hstore hdrv hpass hopen hend
  have hlen : 0 < len.toNat := by
    refine Nat.pos_of_ne_zero fun h0 => ?_
    rw [offsetOf, h0] at hend
    omega
  have hshort : (f.read (offsetOf trk len) len.toNat).length < len.toNat := by
    rw [File.length_read]
    omega
  have hpos : offsetOf trk len + (f.read (offsetOf trk len) len.toNat).length = max (offsetOf trk len) f.size := by
    rw [File.length_read]
    omega
  refine ⟨_, selected_aimed drv trk s, ?_⟩
  rw [exec, execRead_reference hinv hstore hdrv hpass hopen, if_pos hshort, hpos]
  simp [State.aimed, drop, finish, raiseDiag, diagCode, inc_eq]

/-! ## A store within R57 -/

/-- Taking an answer touches no field another operation reads or writes. -/
@[simp] theorem dropDraw_bumpRead (s : State) : s.bumpRead.dropDraw = s.dropDraw.bumpRead := by
  unfold State.dropDraw
  rw [bumpRead_draws]
  split <;> rfl

@[simp] theorem dropDraw_aimed (drv : BitVec 4) (trk : BitVec 12) (s : State) :
    (s.aimed drv trk).dropDraw = s.dropDraw.aimed drv trk := by
  unfold State.dropDraw
  rw [State.aimed, setCurTrack_draws, select_draws]
  split <;> rfl

@[simp] theorem dropDraw_setPos (d p : Nat) (s : State) : (s.setPos d p).dropDraw = s.dropDraw.setPos d p := by
  unfold State.dropDraw
  rw [setPos_draws]
  split <;> rfl

@[simp] theorem dropDraw_raiseDiag (c : Diag) (s : State) : (raiseDiag c s).dropDraw = raiseDiag c s.dropDraw := by
  unfold State.dropDraw
  rw [raiseDiag_draws]
  split <;> rfl

@[simp] theorem peekDraw_bumpRead (s : State) : s.bumpRead.peekDraw = s.peekDraw := rfl

@[simp] theorem peekDraw_aimed (drv : BitVec 4) (trk : BitVec 12) (s : State) :
    (s.aimed drv trk).peekDraw = s.peekDraw := rfl

@[simp] theorem peekDraw_setPos (d p : Nat) (s : State) : (s.setPos d p).peekDraw = s.peekDraw := rfl

@[simp] theorem peekDraw_raiseDiag (c : Diag) (s : State) : (raiseDiag c s).peekDraw = s.peekDraw := rfl

theorem readSeek_oracle_of_ok {d off : Nat} {s : State} (h : s.params.store = .oracle)
    (hok : s.peekDraw.seekOk = true) : readSeek d off s = s.dropDraw.setPos d off := by
  rw [readSeek, storeSeek_oracle d off h, hok]
  rfl

theorem readSeek_oracle_of_failed {d off : Nat} {s : State} (h : s.params.store = .oracle)
    (hok : s.peekDraw.seekOk = false) :
    readSeek d off s = raiseDiag .seekFailure (s.dropDraw.setPos d s.peekDraw.seekPos) := by
  rw [readSeek, storeSeek_oracle d off h, hok]
  rfl

/-- R57: after a seek that succeeded, the file's bytes at the offset, as many as the store gives. -/
theorem readTrack_oracle_of_ok {d off : Nat} {len : U16} {s : State} {h : Handle} {f : File} {bytes : List Byte}
    (hstore : s.params.store = .oracle) (hok : s.peekDraw.seekOk = true) (hopen : s.openStore d = some (h, f))
    (hpos : d < s.storePos.length) (hfit : len.toNat + 2 ≤ s.tb.length)
    (hbytes : bytes = f.read off (min s.dropDraw.peekDraw.count len.toNat)) :
    readTrack d off len s =
      if bytes.length < len.toNat then .next (drop .shortStoreRead (s.dropDraw.dropDraw.setPos d (off + bytes.length)))
      else .next (answerTrack bytes (s.dropDraw.dropDraw.setPos d (off + bytes.length))) := by
  have hpos' : (s.dropDraw.setPos d off).pos d = off := pos_setPos off (by simpa using hpos)
  have hstore' : (s.dropDraw.setPos d off).params.store = .oracle := by simpa using hstore
  have hread : (readSeek d off s).readBytes (storeSeek d off s).1 f d len.toNat = bytes := by
    rw [readSeek_oracle_of_ok hstore hok, storeSeek_oracle d off hstore, hok, State.readBytes, if_pos rfl, hpos',
      State.readCount, hstore', peekDraw_setPos, hbytes]
  rw [readTrack_of_openStore hopen hread hfit, readSeek_oracle_of_ok hstore hok, answered_oracle hstore', hpos',
    dropDraw_setPos, setPos_setPos]

/-- R163, 93 I3: after a failed seek, any bytes, at most as many as asked for. -/
theorem readTrack_oracle_of_failed {d off : Nat} {len : U16} {s : State} {h : Handle} {f : File} {bytes : List Byte}
    (hstore : s.params.store = .oracle) (hok : s.peekDraw.seekOk = false) (hopen : s.openStore d = some (h, f))
    (hpos : d < s.storePos.length) (hfit : len.toNat + 2 ≤ s.tb.length)
    (hbytes : bytes = s.dropDraw.peekDraw.data.take len.toNat) :
    readTrack d off len s =
      if bytes.length < len.toNat then
        .next (drop .shortStoreRead
          (raiseDiag .seekFailure (s.dropDraw.dropDraw.setPos d (s.peekDraw.seekPos + bytes.length))))
      else
        .next (answerTrack bytes
          (raiseDiag .seekFailure (s.dropDraw.dropDraw.setPos d (s.peekDraw.seekPos + bytes.length)))) := by
  have hpos' : (raiseDiag .seekFailure (s.dropDraw.setPos d s.peekDraw.seekPos)).pos d = s.peekDraw.seekPos :=
    pos_setPos s.peekDraw.seekPos (s := s.dropDraw) (by simpa using hpos)
  have hstore' : (raiseDiag .seekFailure (s.dropDraw.setPos d s.peekDraw.seekPos)).params.store = .oracle := by
    simpa using hstore
  have hread : (readSeek d off s).readBytes (storeSeek d off s).1 f d len.toNat = bytes := by
    rw [readSeek_oracle_of_failed hstore hok, storeSeek_oracle d off hstore, hok, State.readBytes,
      if_neg Bool.false_ne_true, peekDraw_raiseDiag, peekDraw_setPos, hbytes]
  have hset : ∀ q, (raiseDiag .seekFailure (s.dropDraw.dropDraw.setPos d s.peekDraw.seekPos)).setPos d q =
      raiseDiag .seekFailure (s.dropDraw.dropDraw.setPos d q) := fun q =>
    congrArg (raiseDiag .seekFailure) (setPos_setPos d s.peekDraw.seekPos q s.dropDraw.dropDraw)
  rw [readTrack_of_openStore hopen hread hfit, readSeek_oracle_of_failed hstore hok, answered_oracle hstore', hpos',
    dropDraw_raiseDiag, dropDraw_setPos, hset]

/-- A read that returns at most what was asked for is short or full. -/
theorem readOutcome_eq {bytes : List Byte} {n : Nat} {s s' t t' : State} (hle : bytes.length ≤ n) (hshort : s = s')
    (hfull : bytes.length = n → t = t') :
    (if bytes.length < n then Host.Outcome.next s else .next t : Host.Outcome State Fault Refusal) =
      if bytes.length < n then .next s' else .next t' := by
  split
  · rw [hshort]
  · rw [hfull (by omega)]

/-- Settles O21: the two results of the seek, and behind each the short and the full read. -/
theorem readTakesAnyStoreAnswer : Obligations.ReadTakesAnyStoreAnswer := by
  intro s drv trk len h f p errs hinv hstore hdrv hpass hopen hp herrs
  have hopen' : (s.bumpRead.aimed drv trk).openStore drv.toNat = some (h, f) := by simpa using hopen
  have hpos : drv.toNat < (s.bumpRead.aimed drv trk).storePos.length := by simpa using lt_length_storePos hinv hdrv
  have hfit : len.toNat + 2 ≤ (s.bumpRead.aimed drv trk).tb.length := by simpa using len_fits_of_pass hinv hpass
  rw [exec, execRead_of_pass hdrv (trackCheck_eq_none_iff.2 hpass), toNat_trackOffset]
  cases hok : s.peekDraw.seekOk with
  | true =>
    rw [hok, if_pos rfl] at hp herrs
    subst p errs
    obtain ⟨bytes, hbytes⟩ : ∃ bytes, bytes = f.read (offsetOf trk len) (min s.dropDraw.peekDraw.count len.toNat) :=
      ⟨_, rfl⟩
    have hlen : bytes.length = min (min s.dropDraw.peekDraw.count len.toNat) (f.size - offsetOf trk len) :=
      hbytes ▸ File.length_read ..
    refine ⟨_, bytes, selected_aimed drv trk s, fun _ => ⟨hlen, fun i hi => ?_⟩, fun hfalse => Bool.noConfusion hfalse,
      ?_⟩
    · subst hbytes
      rw [storeByte_of_openStore hopen, File.byte_eq_read f _ hi]
    · rw [readTrack_oracle_of_ok (s := s.bumpRead.aimed drv trk) hstore hok hopen' hpos hfit (by simpa using hbytes)]
      simp only [dropDraw_aimed, dropDraw_bumpRead]
      exact readOutcome_eq (by omega) (by simp [drop, finish, raiseDiag, diagCode, inc_eq, State.aimed])
        fun hfull => by simp [answerTrack_eq, inc_eq, hfull, State.aimed]
  | false =>
    rw [hok, if_neg Bool.false_ne_true] at hp herrs
    subst p errs
    obtain ⟨bytes, hbytes⟩ : ∃ bytes, bytes = s.dropDraw.peekDraw.data.take len.toNat := ⟨_, rfl⟩
    have hlen : bytes.length ≤ len.toNat := hbytes ▸ List.length_take_le ..
    refine ⟨_, bytes, selected_aimed drv trk s, fun htrue => Bool.noConfusion htrue, fun _ => hbytes, ?_⟩
    rw [readTrack_oracle_of_failed (s := s.bumpRead.aimed drv trk) hstore hok hopen' hpos hfit (by simpa using hbytes)]
    simp only [dropDraw_aimed, dropDraw_bumpRead, peekDraw_aimed, peekDraw_bumpRead]
    exact readOutcome_eq hlen (by simp [drop, finish, raiseDiag, diagCode, inc_eq, State.aimed])
      fun hfull => by simp [answerTrack_eq, raiseDiag, diagCode, inc_eq, hfull, State.aimed]

end Sys2Proof.Machine
end

section
/-! PROOF. The commit step (44_writ.md R189 to R193): a payload that is refused leaves the store, and a good one is written
as far as the store takes it. -/

namespace Sys2Proof.Machine

open Sys2Proof.Claims

/-! ## A payload that is not written -/

theorem encode_wsta_ok : encode (.wsta .ok) = wstaOK := rfl

theorem encode_wsta_checksumError : encode (.wsta .checksumError) = wstaChecksumError := rfl

theorem encode_wsta_writeError : encode (.wsta .writeError) = wstaWriteError := rfl

theorem execData_of_checksum_ne {s : State} {payload : List Byte} {k : U16} (hlen : payload.length = s.cmdLen.toNat)
    (hsum : checksum payload ≠ k) :
    execData payload k s = .next (answerWsta .checksumError (raiseDiag .payloadChecksum s)) := by
  rw [execData, if_pos hlen, if_neg hsum]

/-- Settles O25: the length is compared first. -/
theorem dataOfAnotherLengthStops : Obligations.DataOfAnotherLengthStops := fun _ _ _ hlen => if_neg hlen

theorem payloadTimeout_of_writPayload {s : State} (h : s.engState = .writPayload) :
    payloadTimeout s = answerWsta .checksumError (raiseDiag .shortPayload s) := if_pos h

/-- Settles O24: neither answer of CHECKSUM_ERROR is behind a store primitive. -/
theorem checksumErrorLeavesTheStore : Obligations.ChecksumErrorLeavesTheStore := by
  constructor
  · intro s payload k hlen hsum
    rw [exec, execData_of_checksum_ne hlen hsum, answerWsta, encode_wsta_checksumError]
    rfl
  · intro s u h hstate
    rw [step_of_eventNext h]
    obtain ⟨ts, rfl⟩ := eq_with_turns_of_eventNext h
    rw [runEvent, payloadTimeout_of_writPayload (s := { s with turns := ts }) hstate, answerWsta,
      encode_wsta_checksumError]
    rfl

/-! ## A good payload -/

theorem execData_of_seek_failed {s : State} {payload : List Byte} (hlen : payload.length = s.cmdLen.toNat)
    (hseek : (storeSeek s.cmdDrv.toNat (offsetOf s.cmdTrk s.cmdLen) s).1 = false) :
    execData payload (checksum payload) s = .next (answerWsta .writeError
      (raiseDiag .seekFailure (storeSeek s.cmdDrv.toNat (offsetOf s.cmdTrk s.cmdLen) s).2)) := by
  rw [execData, if_pos hlen, if_pos rfl, toNat_trackOffset, hseek]
  rfl

theorem execData_of_seek_ok {s : State} {payload : List Byte} (hlen : payload.length = s.cmdLen.toNat)
    (hseek : (storeSeek s.cmdDrv.toNat (offsetOf s.cmdTrk s.cmdLen) s).1 = true) :
    execData payload (checksum payload) s =
      commitWrite payload (storeSeek s.cmdDrv.toNat (offsetOf s.cmdTrk s.cmdLen) s).2 := by
  rw [execData, if_pos hlen, if_pos rfl, toNat_trackOffset, if_pos hseek]

/-- R190, R191: with an open store the write's count decides the outcome. -/
theorem commitWrite_of_openStore {s : State} {payload : List Byte} {h : Handle} {f : File} {p k : Nat}
    (hopen : s.openStore s.cmdDrv.toNat = some (h, f)) (hp : s.pos s.cmdDrv.toNat = p) (hk : s.writeCount payload = k) :
    commitWrite payload s =
      if k < payload.length then .next (answerWsta .writeError (raiseDiag .shortStoreWrite
        ((s.answered.setFile h (s.written f p payload)).setPos s.cmdDrv.toNat (p + k))))
      else .next (answerWsta .ok ((s.answered.setFile h (s.written f p payload)).setPos s.cmdDrv.toNat (p + k))) := by
  subst hp hk
  rw [commitWrite, storeWrite, hopen]

/-- R181, R184: the latch of an open exchange names a drive of the table, and a length within the bound. -/
theorem latch_of_writCommit {s : State} (hinv : Inv s) (hstate : s.engState = .writCommit) :
    s.cmdDrv.toNat < s.params.nDrives ∧ s.cmdLen.toNat ≤ s.params.maxTrackLen := by
  obtain ⟨-, -, -, -, hlatch, -⟩ := shapeFault_eq_none.1 hinv.shape
  simpa [latchOK, driveOK, hstate] using hlatch

theorem file_wf_of_inv {s : State} (hinv : Inv s) {h : Handle} {f : File} (hf : kvGet s.files h = some f) :
    f.wf = true :=
  List.all_eq_true.1 hinv.canonical _ (mem_of_kvGet hf)

/-- A store whose file `h` is replaced reads as that file at `h`. -/
theorem storeByte_withFiles_same (s : State) (h : Handle) (f : File) (a : Nat) :
    (withFiles s (kvPut s.files h f)).storeByte h a = f.byte a := by
  rw [State.storeByte, withFiles, kvGet_kvPut_same]
  rfl

theorem storeByte_withFiles_other (s : State) {h h' : Handle} (f : File) (hne : h' ≠ h) (a : Nat) :
    (withFiles s (kvPut s.files h f)).storeByte h' a = s.storeByte h' a := by
  rw [State.storeByte, withFiles, kvGet_kvPut_other _ _ hne, State.storeByte]

/-- A write behind a seek sets the position last. -/
theorem setPos_setFile_setPos (d p q : Nat) (h : Handle) (f : File) (s : State) :
    ((s.setPos d p).setFile h f).setPos d q = (s.setFile h f).setPos d q :=
  setPos_setPos d p q (s.setFile h f)

/-- R189, R190: the reference store takes every byte. -/
theorem commitWrite_reference {s : State} {payload : List Byte} {h : Handle} {f : File} (off : Nat)
    (hstore : s.params.store = .reference) (hopen : s.openStore s.cmdDrv.toNat = some (h, f))
    (hpos : s.cmdDrv.toNat < s.storePos.length) :
    commitWrite payload (s.setPos s.cmdDrv.toNat off) = .next (answerWsta .ok
      ((s.setFile h (f.write off [] payload)).setPos s.cmdDrv.toNat (off + payload.length))) := by
  have hcount : (s.setPos s.cmdDrv.toNat off).writeCount payload = payload.length := by
    rw [State.writeCount, setPos_params, hstore]
  have hwritten : (s.setPos s.cmdDrv.toNat off).written f off payload = f.write off [] payload := by
    rw [State.written, setPos_params, hstore]
  rw [commitWrite_of_openStore (s := s.setPos s.cmdDrv.toNat off) hopen (pos_setPos off hpos) hcount,
    if_neg (lt_irrefl _), answered_reference (s := s.setPos s.cmdDrv.toNat off) hstore, hwritten, setPos_cmdDrv,
    setPos_setFile_setPos]

/-- R190, R191: a store within R57 takes as many bytes as its answer says. -/
theorem commitWrite_oracle {s : State} {payload : List Byte} {h : Handle} {f : File} {k : Nat} (off : Nat)
    (hstore : s.params.store = .oracle) (hopen : s.openStore s.cmdDrv.toNat = some (h, f))
    (hpos : s.cmdDrv.toNat < s.storePos.length) (hk : s.writeCount payload = k) :
    commitWrite payload (s.setPos s.cmdDrv.toNat off) =
      if k < payload.length then .next (answerWsta .writeError (raiseDiag .shortStoreWrite
        ((s.dropDraw.setFile h (s.written f off payload)).setPos s.cmdDrv.toNat (off + k))))
      else .next (answerWsta .ok
        ((s.dropDraw.setFile h (s.written f off payload)).setPos s.cmdDrv.toNat (off + k))) := by
  rw [commitWrite_of_openStore (s := s.setPos s.cmdDrv.toNat off) hopen (pos_setPos off hpos) hk,
    answered_oracle (s := s.setPos s.cmdDrv.toNat off) hstore, dropDraw_setPos, setPos_cmdDrv, setPos_setFile_setPos]
  rfl

/-- R189, R190: from a state of the invariant, a good payload under the reference store. -/
theorem execData_reference {s : State} {payload : List Byte} {h : Handle} {f : File} (hinv : Inv s)
    (hstate : s.engState = .writCommit) (hstore : s.params.store = .reference) (hlen : payload.length = s.cmdLen.toNat)
    (hopen : s.openStore s.cmdDrv.toNat = some (h, f)) :
    execData payload (checksum payload) s = .next (answerWsta .ok
      ((s.setFile h (f.write (offsetOf s.cmdTrk s.cmdLen) [] payload)).setPos s.cmdDrv.toNat
        (offsetOf s.cmdTrk s.cmdLen + payload.length))) := by
  have hpos : s.cmdDrv.toNat < s.storePos.length := lt_length_storePos hinv (latch_of_writCommit hinv hstate).1
  have hseek := storeSeek_reference s.cmdDrv.toNat (offsetOf s.cmdTrk s.cmdLen) hstore
  rw [execData_of_seek_ok hlen (by rw [hseek]), hseek, commitWrite_reference _ hstore hopen hpos]

/-- Settles O26: the reference store takes the whole payload at the offset. -/
theorem dataIsWrittenToTheReferenceStore : Obligations.DataIsWrittenToTheReferenceStore := by
  intro s payload h f hinv hstate hstore hlen hopen
  have ⟨_, _, hfile⟩ := openStore_eq_some hopen
  have hwf : f.wf = true := file_wf_of_inv hinv hfile
  refine ⟨kvPut s.files h (f.write (offsetOf s.cmdTrk s.cmdLen) [] payload), ?_, fun i hi => ?_, fun a hlo hhi => ?_,
    fun h' a hout => ?_⟩
  · rw [exec, execData_reference hinv hstate hstore hlen hopen, answerWsta, encode_wsta_ok]
    simp [finish, emit, State.setPos, State.setFile]
  · rw [storeByte_withFiles_same, File.byte_write_inside _ _ hi hwf]
  · rw [storeByte_withFiles_same, File.byte_write_gap _ hwf hlo hhi]
  · by_cases hh : h' = h
    · subst hh
      have hspan := hout.resolve_left (not_not.2 rfl)
      rw [storeByte_withFiles_same, storeByte_of_openStore hopen,
        File.byte_write_outside _ _ _ _ (by omega) (by omega)]
    · exact storeByte_withFiles_other s _ hh a

/-- Settles O27: the answers to the seek and to the write, and what the store's bounds leave of the file. -/
theorem dataTakesAnyStoreAnswer : Obligations.DataTakesAnyStoreAnswer := by
  intro s payload h f k hinv hstate hstore hlen hopen hk
  have ⟨_, _, hfile⟩ := openStore_eq_some hopen
  have hwf : f.wf = true := file_wf_of_inv hinv hfile
  have hseek := storeSeek_oracle s.cmdDrv.toNat (offsetOf s.cmdTrk s.cmdLen) hstore
  refine ⟨fun hok => ?_, fun hok => ?_⟩
  · rw [hok] at hseek
    rw [exec, execData_of_seek_failed hlen (by rw [hseek]), hseek, answerWsta, encode_wsta_writeError]
    simp [finish, emit, raiseDiag, diagCode, inc_eq, State.setPos]
  · rw [hok, if_pos rfl] at hseek
    have hstore' : s.dropDraw.params.store = .oracle := by rw [dropDraw_params, hstore]
    have hopen' : s.dropDraw.openStore s.dropDraw.cmdDrv.toNat = some (h, f) := by
      rw [dropDraw_cmdDrv, ← hopen]
      exact openStore_congr (by simp) (by simp) (by simp)
    have hpos : s.dropDraw.cmdDrv.toNat < s.dropDraw.storePos.length := by
      simpa using lt_length_storePos hinv (latch_of_writCommit hinv hstate).1
    have hcount : s.dropDraw.writeCount payload = k := by
      rw [hk, State.writeCount, hstore']
    have hcommit := commitWrite_oracle (offsetOf s.cmdTrk s.cmdLen) hstore' hopen' hpos hcount
    rw [dropDraw_cmdDrv] at hcommit
    refine ⟨kvPut s.files h (s.dropDraw.written f (offsetOf s.cmdTrk s.cmdLen) payload), ?_, fun i hi => ?_,
      fun h' a hout => ?_⟩
    · rw [exec, execData_of_seek_ok hlen (by rw [hseek]), hseek, hcommit, answerWsta, answerWsta,
        encode_wsta_writeError, encode_wsta_ok]
      simp [finish, emit, raiseDiag, diagCode, inc_eq, State.setPos, State.setFile]
    · rw [storeByte_withFiles_same, byte_written_taken _ _ _ hwf (hcount.symm ▸ hi)]
    · by_cases hh : h' = h
      · subst hh
        obtain ⟨hold, hspan⟩ := hout.resolve_left (not_not.2 rfl)
        rw [storeByte_withFiles_same, storeByte_of_openStore hopen, byte_written_outside _ _ _ hold hspan]
      · exact storeByte_withFiles_other s _ hh a

end Sys2Proof.Machine
end

section
/-! PROOF. What no row of the table writes, and how each row ends (42_stat.md R150, 43_read.md R160, 44_writ.md R180, R189):
a row prepares (counters, LAST_ERR, flags, `curTrack`, the store) and then ends in a drop or in one answer. -/

namespace Sys2Proof.Machine

open Sys2Proof.Claims

/-! ## Before a row ends -/

/-- `u` is `s` but for counters, LAST_ERR, each slot's `curTrack` and flags, and what the store holds. -/
structure Prepared (s u : State) : Prop where
  params : u.params = s.params
  engState : u.engState = s.engState
  fbCnt : u.fbCnt = s.fbCnt
  fb : u.fb = s.fb
  tbCnt : u.tbCnt = s.tbCnt
  tb : u.tb = s.tb
  latch : u.cmdDrv = s.cmdDrv ∧ u.cmdTrk = s.cmdTrk ∧ u.cmdLen = s.cmdLen
  opPend : u.opPend = s.opPend
  rx : u.rx = s.rx
  tx : u.tx = s.tx
  linkOpen : u.linkOpen = s.linkOpen
  statusOut : u.statusOut = s.statusOut
  turns : u.turns = s.turns
  slots : ∀ j, (u.slot j).mounted = (s.slot j).mounted ∧ (u.slot j).handle = (s.slot j).handle ∧
    (u.slot j).maxTrack = (s.slot j).maxTrack

theorem Prepared.refl (s : State) : Prepared s s := by constructor <;> simp

theorem Prepared.trans {s u v : State} (h : Prepared s u) (h' : Prepared u v) : Prepared s v where
  params := h'.params.trans h.params
  engState := h'.engState.trans h.engState
  fbCnt := h'.fbCnt.trans h.fbCnt
  fb := h'.fb.trans h.fb
  tbCnt := h'.tbCnt.trans h.tbCnt
  tb := h'.tb.trans h.tb
  latch := by simp only [h'.latch, h.latch, and_self]
  opPend := h'.opPend.trans h.opPend
  rx := h'.rx.trans h.rx
  tx := h'.tx.trans h.tx
  linkOpen := h'.linkOpen.trans h.linkOpen
  statusOut := h'.statusOut.trans h.statusOut
  turns := h'.turns.trans h.turns
  slots := fun j => by simp only [h'.slots, h.slots, and_self]

theorem prepared_raiseDiag (c : Diag) (s : State) : Prepared s (raiseDiag c s) := { Prepared.refl s with }

theorem prepared_bumpStat (s : State) : Prepared s s.bumpStat := { Prepared.refl s with }

theorem prepared_bumpRead (s : State) : Prepared s s.bumpRead := { Prepared.refl s with }

theorem prepared_bumpWrit (s : State) : Prepared s s.bumpWrit := { Prepared.refl s with }

theorem prepared_setPos (d p : Nat) (s : State) : Prepared s (s.setPos d p) := { Prepared.refl s with }

theorem prepared_setFile (h : Handle) (f : File) (s : State) : Prepared s (s.setFile h f) := { Prepared.refl s with }

theorem prepared_select (d : Nat) (h : Bool) (s : State) : Prepared s (s.select d h) :=
  { Prepared.refl s with slots := slot_select_keeps d h s }

theorem prepared_setCurTrack (d : Nat) (t : U16) (s : State) : Prepared s (s.setCurTrack d t) :=
  { Prepared.refl s with slots := slot_setCurTrack_keeps d t s }

theorem prepared_answered (s : State) : Prepared s s.answered := by constructor <;> simp

theorem prepared_aimed (drv : BitVec 4) (trk : BitVec 12) (s : State) : Prepared s (s.aimed drv trk) :=
  (prepared_select _ _ s).trans (prepared_setCurTrack _ _ _)

theorem prepared_statUpdate (sel hl : BitVec 8) (trk : U16) (s : State) : Prepared s (statUpdate sel hl trk s) := by
  unfold statUpdate
  split
  · exact (prepared_select _ _ s).trans (prepared_setCurTrack _ _ _)
  · exact Prepared.refl s

theorem prepared_readSeek (d off : Nat) (s : State) : Prepared s (readSeek d off s) := by
  have hset : ∀ p, Prepared s (s.answered.setPos d p) := fun p => (prepared_answered s).trans (prepared_setPos d p _)
  obtain ⟨p, h | h⟩ := readSeek_cases d off s
  · exact h ▸ hset p
  · exact h ▸ (hset p).trans (prepared_raiseDiag _ _)

theorem prepared_storeRead {sought : Bool} {d n : Nat} {s t : State} {bytes : List Byte}
    (h : storeRead sought d n s = some (bytes, t)) : Prepared s t := by
  obtain ⟨_, _, -, -, -, rfl⟩ := storeRead_eq_some h
  exact (prepared_answered s).trans (prepared_setPos _ _ _)

theorem prepared_storeWrite {d k : Nat} {s t : State} {bytes : List Byte} (h : storeWrite d bytes s = some (k, t)) :
    Prepared s t := by
  obtain ⟨_, _, -, -, rfl⟩ := storeWrite_eq_some h
  exact ((prepared_answered s).trans (prepared_setFile _ _ _)).trans (prepared_setPos _ _ _)

/-- A StoreRead writes no file and no slot. -/
theorem storeRead_files_dt {sought : Bool} {d n : Nat} {s t : State} {bytes : List Byte}
    (h : storeRead sought d n s = some (bytes, t)) : t.files = s.files ∧ t.dt = s.dt := by
  obtain ⟨_, _, -, -, -, rfl⟩ := storeRead_eq_some h
  exact ⟨by simp, by simp⟩

theorem readSeek_files_dt (d off : Nat) (s : State) :
    (readSeek d off s).files = s.files ∧ (readSeek d off s).dt = s.dt := by
  obtain ⟨p, h | h⟩ := readSeek_cases d off s <;> simp [h]

/-! ## How a row ends -/

/-- `t` is the end of a row that has prepared `u`: a drop, an answer that ends the command, or the readiness of OK behind its
latch, which opens the payload phase. -/
inductive RowEnd (u : State) : State → Prop
  | dropped : RowEnd u (finish u)
  | answeredStat (map : U16) : RowEnd u (answerStat map u)
  | answeredWsta (o : WstaCode) : RowEnd u (answerWsta o u)
  | notReady : RowEnd u (answerReady .notReady u)
  | sent (bytes : List Byte) (hfit : bytes.length + 2 ≤ u.tb.length) : RowEnd u (answerTrack bytes u)
  | opened (drv : BitVec 4) (trk : BitVec 12) (len : U16) : RowEnd u (answerReady .ok (u.latch drv trk len))

theorem OutsideKept.trans {s u t : State} (h : OutsideKept s u) (h' : OutsideKept u t) : OutsideKept s t where
  params := h'.params.trans h.params
  rx := h'.rx.trans h.rx
  linkOpen := h'.linkOpen.trans h.linkOpen
  opPend := h'.opPend.trans h.opPend
  statusOut := h'.statusOut.trans h.statusOut
  turns := h'.turns.trans h.turns
  fb := h'.fb.trans h.fb

theorem Prepared.outsideKept {s u : State} (h : Prepared s u) : OutsideKept s u :=
  ⟨h.params, h.rx, h.linkOpen, h.opPend, h.statusOut, h.turns, h.fb⟩

theorem RowEnd.outsideKept {u t : State} (h : RowEnd u t) : OutsideKept u t := by
  cases h <;> exact ⟨rfl, rfl, rfl, rfl, rfl, rfl, rfl⟩

/-- No answer writes the drive table or a file. -/
theorem RowEnd.dt_files {u t : State} (h : RowEnd u t) : t.dt = u.dt ∧ t.files = u.files := by
  cases h <;> exact ⟨rfl, rfl⟩

/-- R131, R184: a row ends in AWAIT_FRAME with an empty frame, or opens the payload phase behind a readiness of OK. -/
theorem RowEnd.engState {u t : State} (h : RowEnd u t) :
    (t.engState = .awaitFrame ∧ t.fbCnt = 0) ∨ (t.engState = .writPayload ∧ t.tx = u.tx ++ readinessOK) := by
  cases h with
  | opened drv trk len => exact .inr ⟨rfl, rfl⟩
  | dropped | answeredStat _ | answeredWsta _ | notReady | sent _ _ => exact .inl ⟨rfl, rfl⟩

/-- R3, R133: a row emits nothing, or one response row. -/
theorem RowEnd.tx {u t : State} (h : RowEnd u t) (htb : u.tb.length = u.params.maxTrackLen + 2) :
    t.tx = u.tx ∨ ∃ r, isResponse r ∧ r.wf u.params = true ∧ t.tx = u.tx ++ encode r := by
  cases h with
  | dropped => exact .inl rfl
  | answeredStat map => exact .inr ⟨.statResp map, trivial, rfl, rfl⟩
  | answeredWsta o => exact .inr ⟨.wsta o, trivial, rfl, rfl⟩
  | notReady => exact .inr ⟨.writRdy .notReady, trivial, rfl, rfl⟩
  | sent bytes hfit => exact .inr ⟨.track bytes, trivial, decide_eq_true (by omega), rfl⟩
  | opened drv trk len => exact .inr ⟨.writRdy .ok, trivial, rfl, rfl⟩

/-! ## Each row prepares, and then ends -/

theorem readTrack_rowEnd {d off : Nat} {len : U16} {s t : State} (h : readTrack d off len s = .next t) :
    ∃ u, Prepared s u ∧ u.files = s.files ∧ u.dt = s.dt ∧ RowEnd u t := by
  obtain ⟨bytes, v, hread, hend⟩ := readTransfer_eq_next h
  have hprep : Prepared s v := (prepared_readSeek d off s).trans (prepared_storeRead hread)
  obtain ⟨hfiles, hdt⟩ := storeRead_files_dt hread
  obtain ⟨hfiles', hdt'⟩ := readSeek_files_dt d off s
  obtain ⟨-, rfl⟩ | ⟨hlen, hfit, rfl⟩ := hend
  · exact ⟨_, hprep.trans (prepared_raiseDiag _ _), hfiles.trans hfiles', hdt.trans hdt', .dropped⟩
  · exact ⟨v, hprep, hfiles.trans hfiles', hdt.trans hdt', .sent bytes (hlen ▸ hfit)⟩

/-- Every row but DATA prepares without touching a file, and ends. -/
theorem exec_rowEnd_of_not_data {i : Instr} {s t : State} (hdata : ∀ payload k, i ≠ .data payload k)
    (h : exec i s = .next t) : ∃ u, Prepared s u ∧ u.files = s.files ∧ RowEnd u t := by
  cases i with
  | stat sel hl trk =>
    cases h
    refine ⟨_, (prepared_bumpStat s).trans (prepared_statUpdate sel hl trk _), ?_, .answeredStat _⟩
    unfold statUpdate
    split <;> rfl
  | read drv trk len =>
    obtain ⟨-, rfl⟩ | ⟨-, c, -, rfl⟩ | ⟨-, -, htrack⟩ := execRead_eq_next h
    · exact ⟨_, (prepared_bumpRead s).trans (prepared_raiseDiag .invalidDrive _), rfl, .dropped⟩
    · exact ⟨_, ((prepared_bumpRead s).trans (prepared_select _ _ _)).trans (prepared_raiseDiag c _), rfl, .dropped⟩
    · obtain ⟨u, hprep, hfiles, -, hend⟩ := readTrack_rowEnd htrack
      exact ⟨u, ((prepared_bumpRead s).trans (prepared_aimed drv trk _)).trans hprep, hfiles, hend⟩
  | writ drv trk len =>
    obtain ⟨-, rfl⟩ | ⟨-, c, -, rfl⟩ | ⟨-, -, rfl⟩ := execWrit_eq_next h
    · exact ⟨_, (prepared_bumpWrit s).trans (prepared_raiseDiag .invalidDrive _), rfl, .dropped⟩
    · exact ⟨_, ((prepared_bumpWrit s).trans (prepared_select _ _ _)).trans (prepared_raiseDiag c _), rfl, .notReady⟩
    · exact ⟨_, (prepared_bumpWrit s).trans (prepared_aimed drv trk _), rfl, .opened drv trk len⟩
  | statResp map =>
    cases h
    exact ⟨s, Prepared.refl s, rfl, .answeredStat map⟩
  | writRdy r =>
    cases h
    cases r with
    | ok => exact ⟨s, Prepared.refl s, rfl, .opened s.cmdDrv s.cmdTrk s.cmdLen⟩
    | notReady => exact ⟨s, Prepared.refl s, rfl, .notReady⟩
  | wsta o =>
    cases h
    exact ⟨s, Prepared.refl s, rfl, .answeredWsta o⟩
  | track bytes =>
    rw [exec, execTrack, sendTrack] at h
    split at h
    · rename_i hfit
      cases h
      exact ⟨s, Prepared.refl s, rfl, .sent bytes hfit⟩
    · cases h
  | data payload k => exact absurd rfl (hdata payload k)

/-- R188: DATA always ends in a WSTA. -/
theorem execData_answer {payload : List Byte} {k : U16} {s t : State} (h : execData payload k s = .next t) :
    ∃ u o, Prepared s u ∧ t = answerWsta o u := by
  have hset : ∀ p, Prepared s (s.answered.setPos s.cmdDrv.toNat p) := fun p =>
    (prepared_answered s).trans (prepared_setPos _ p _)
  obtain ⟨-, ⟨-, rfl⟩ | ⟨-, p, ⟨-, rfl⟩ | ⟨-, m, u, hwrite, hend⟩⟩⟩ := execData_eq_next h
  · exact ⟨_, _, prepared_raiseDiag _ s, rfl⟩
  · exact ⟨_, _, (hset p).trans (prepared_raiseDiag _ _), rfl⟩
  · have hprep : Prepared s u := (hset p).trans (prepared_storeWrite hwrite)
    obtain ⟨-, rfl⟩ | ⟨-, rfl⟩ := hend
    · exact ⟨_, _, hprep.trans (prepared_raiseDiag _ _), rfl⟩
    · exact ⟨_, _, hprep, rfl⟩

/-- Every row prepares and then ends. -/
theorem exec_rowEnd {i : Instr} {s t : State} (h : exec i s = .next t) : ∃ u, Prepared s u ∧ RowEnd u t := by
  by_cases hdata : ∃ payload k, i = .data payload k
  · obtain ⟨payload, k, rfl⟩ := hdata
    obtain ⟨u, o, hprep, rfl⟩ := execData_answer h
    exact ⟨u, hprep, .answeredWsta o⟩
  · obtain ⟨u, hprep, -, hend⟩ := exec_rowEnd_of_not_data (fun payload k hi => hdata ⟨payload, k, hi⟩) h
    exact ⟨u, hprep, hend⟩

/-- Settles O31: neither what a row prepares nor its end writes any of these. -/
theorem rowsKeepTheOutside : Obligations.RowsKeepTheOutside := fun _ _ _ h => by
  obtain ⟨u, hprep, hend⟩ := exec_rowEnd h
  exact hprep.outsideKept.trans hend.outsideKept

/-- Settles O32: no row but DATA prepares a file, and no end writes one. -/
theorem onlyDataWritesAStore : Obligations.OnlyDataWritesAStore := fun i s t hdata h hd a => by
  obtain ⟨u, -, hfiles, hend⟩ := exec_rowEnd_of_not_data hdata h
  exact storeByte_congr (hend.dt_files.2.trans hfiles) hd a

/-- R28, R29: no row writes a slot's `mounted`, `handle` or `maxTrack`. -/
theorem exec_slots {i : Instr} {s t : State} (h : exec i s = .next t) (j : Nat) :
    (t.slot j).mounted = (s.slot j).mounted ∧ (t.slot j).handle = (s.slot j).handle ∧
      (t.slot j).maxTrack = (s.slot j).maxTrack := by
  obtain ⟨u, hprep, hend⟩ := exec_rowEnd h
  rw [slot_congr hend.dt_files.1 j]
  exact hprep.slots j

/-! ## The selection (R127) -/

/-- A command that addresses a drive of the table leaves the table of its selection, but for one `curTrack`. -/
theorem exec_dt_of_addressed {i : Instr} {s t : State} {k : Nat} (haddressed : addressed i = some k)
    (hk : k < s.params.nDrives) (h : exec i s = .next t) :
    t.dt = (s.select k (headOf i)).dt ∨ ∃ trk, t.dt = ((s.select k (headOf i)).setCurTrack k trk).dt := by
  cases i with
  | stat sel hl trk =>
    cases haddressed
    cases h
    refine .inr ⟨trk, ?_⟩
    rw [statUpdate_of_lt (s := s.bumpStat) hl trk hk, headOf, ← headBit_eq]
    rfl
  | read drv trk len =>
    cases haddressed
    obtain ⟨hge, -⟩ | ⟨-, c, -, rfl⟩ | ⟨-, -, htrack⟩ := execRead_eq_next h
    · exact absurd hk hge
    · exact .inl rfl
    · obtain ⟨u, -, -, hdt, hend⟩ := readTrack_rowEnd htrack
      exact .inr ⟨trk.zeroExtend 16, hend.dt_files.1.trans hdt⟩
  | writ drv trk len =>
    cases haddressed
    obtain ⟨hge, -⟩ | ⟨-, c, -, rfl⟩ | ⟨-, -, rfl⟩ := execWrit_eq_next h
    · exact absurd hk hge
    · exact .inl rfl
    · exact .inr ⟨trk.zeroExtend 16, rfl⟩
  | statResp _ | writRdy _ | wsta _ | track _ | data _ _ => cases haddressed

/-- The flags behind such a command are those of its selection. -/
theorem exec_flags_of_addressed {i : Instr} {s t : State} {k : Nat} (haddressed : addressed i = some k)
    (hk : k < s.params.nDrives) (h : exec i s = .next t) (j : Nat) :
    (t.slot j).enabled = ((s.select k (headOf i)).slot j).enabled ∧
      (t.slot j).headLoaded = ((s.select k (headOf i)).slot j).headLoaded := by
  obtain hdt | ⟨trk, hdt⟩ := exec_dt_of_addressed haddressed hk h
  · rw [slot_congr hdt]
    exact ⟨rfl, rfl⟩
  · rw [slot_congr hdt]
    exact slot_setCurTrack_flags k trk _ j

/-- Settles O16: the flags are those of the selection, and no row writes the other fields of a slot. -/
theorem addressedDriveIsTheOnlySelected : Obligations.AddressedDriveIsTheOnlySelected := by
  intro s t i k hlen haddressed hk h
  have hsame : (s.select k (headOf i)).slot k = { s.slot k with enabled := true, headLoaded := headOf i } := by
    rw [slot_select, if_pos ⟨rfl, hlen ▸ hk⟩]
  have hother : ∀ j, j ≠ k → (s.select k (headOf i)).slot j = clearFlags (s.slot j) := fun j hj => by
    rw [slot_select, if_neg (fun hkj => hj hkj.1.symm)]
  obtain ⟨henabled, hhead⟩ := exec_flags_of_addressed haddressed hk h k
  rw [hsame] at henabled hhead
  refine ⟨henabled, hhead, fun j hj => ?_, exec_slots h⟩
  have hflags := exec_flags_of_addressed haddressed hk h j
  rwa [hother j hj] at hflags

/-! ## What DATA writes (R54, R56) -/

/-- Settles O33: only the written file changes, and only inside the span handed to the store. -/
theorem dataWritesOnlyItsTrack : Obligations.DataWritesOnlyItsTrack := by
  intro s t payload k h a b hdrv hexec hb hout
  obtain ⟨-, ⟨-, rfl⟩ | ⟨-, p, ⟨-, rfl⟩ | ⟨rfl, m, u, hwrite, hend⟩⟩⟩ := execData_eq_next hexec
  · exact hb
  · rw [← hb]
    exact storeByte_congr (by simp [answerWsta]) h a
  · obtain ⟨hd, f, hopen, -, rfl⟩ := storeWrite_eq_some hwrite
    have hopen' : s.openStore s.cmdDrv.toNat = some (hd, f) := by
      rw [← hopen]
      exact (openStore_congr (by simp) (by simp) (by simp)).symm
    obtain ⟨hmounted, hhandle, hfile⟩ := openStore_eq_some hopen'
    have hfiles : t.files = kvPut s.files hd (State.written f (trackOffset s.cmdTrk s.cmdLen).toNat payload
        (s.answered.setPos s.cmdDrv.toNat (trackOffset s.cmdTrk s.cmdLen).toNat)) := by
      rw [pos_setPos _ (by simpa using hdrv)] at hend
      obtain ⟨-, rfl⟩ | ⟨-, rfl⟩ := hend <;> simp [answerWsta]
    change (withFiles s t.files).storeByte h a = some b
    rw [hfiles]
    by_cases hh : h = hd
    · subst hh
      have hspan : a < (trackOffset s.cmdTrk s.cmdLen).toNat ∨
          (trackOffset s.cmdTrk s.cmdLen).toNat + payload.length ≤ a := by
        by_contra hin
        exact hout ⟨hhandle, by omega, by omega⟩
      rw [storeByte_of_openStore hopen'] at hb
      have hlt : a < f.size := by
        by_contra hge
        rw [File.byte_of_ge (by omega)] at hb
        cases hb
      rw [storeByte_withFiles_same, byte_written_outside _ _ _ (.inl hlt) hspan, hb]
    · rw [storeByte_withFiles_other s _ hh, hb]

end Sys2Proof.Machine
end

section
/-! PROOF. What a step can do to ENG_STATE (R120), to the transmit stream (R3, R133) and to the slots (R28, R29, R243). -/

namespace Sys2Proof.Machine

open Sys2Proof.Claims

/-- A step that goes on ran the event whose turn it was, on the state but for its list of turns. -/
theorem step_eq_next_turns {s t : State} (h : step s = .next t) :
    ∃ ts, ((takeTurn s).1 = .reset ∧ t = resetBlock { s with turns := ts }) ∨
      ((takeTurn s).1 ≠ .reset ∧ s.shapeFault = none ∧ runEvent (takeTurn s).1 { s with turns := ts } = .next t) := by
  obtain ⟨u, hu, hcases⟩ := step_eq_next h
  obtain ⟨ts, hts⟩ := takeTurn_snd s
  rw [hts] at hu
  subst hu
  exact ⟨ts, hcases⟩

/-! ## The dispatch step and the commit step, said once -/

/-- R122, R123: the dispatch step runs a command, or drops the frame. -/
theorem dispatchStep_cases (s : State) :
    (∃ i k, addressed i = some k ∧ dispatchStep s = exec i s) ∨ ∃ c, dispatchStep s = .next (drop c s) := by
  have hlen : s.fb.toList.length = 10 := by simp
  by_cases hsum : checksum (s.fb.toList.take 8) = rd16 s.fb.toList 8
  · have hdecode : decode .rxFrame s.fb.toList = decodeCommand (decodeFrame s.fb.toList) :=
      decodeChecked_of_checksum_eq decodeCommand hlen hsum
    obtain ⟨-, h⟩ | ⟨-, h⟩ | ⟨-, h⟩ | h := decodeCommand_cases (decodeFrame s.fb.toList)
    · exact .inl ⟨_, _, rfl, dispatchStep_of_ok (hdecode.trans h)⟩
    · exact .inl ⟨_, _, rfl, dispatchStep_of_ok (hdecode.trans h)⟩
    · exact .inl ⟨_, _, rfl, dispatchStep_of_ok (hdecode.trans h)⟩
    · exact .inr ⟨.unknownCommand, dispatchStep_of_unknownCommand (hdecode.trans h)⟩
  · exact .inr ⟨.frameChecksum, dispatchStep_of_frameChecksum (decodeChecked_of_checksum_ne decodeCommand hlen hsum)⟩

theorem rd16_take (l : List Byte) {n i : Nat} (h : i + 1 < (l.take n).length) : rd16 (l.take n) i = rd16 l i := by
  conv_rhs => rw [← List.take_append_drop n l]
  rw [rd16_append_left _ _ h]

/-- R189: the commit step runs the received block as a DATA. -/
theorem commitStep_eq {s : State} (h : s.cmdLen.toNat + 2 ≤ s.tb.length) :
    commitStep s = execData (s.tb.take s.cmdLen.toNat) (rd16 s.tb s.cmdLen.toNat) s := by
  have hlen : (s.tb.take (s.cmdLen.toNat + 2)).length = s.cmdLen.toNat + 2 := List.length_take_of_le h
  have hdecode : decode (.rxBlock s.cmdLen) (s.tb.take (s.cmdLen.toNat + 2)) =
      .ok (.data (s.tb.take s.cmdLen.toNat) (rd16 s.tb s.cmdLen.toNat)) := by
    rw [decode, decodeData, if_neg (not_not.2 hlen), List.take_take, Nat.min_eq_left (by omega),
      rd16_take _ (by omega)]
  exact commitStep_of_ok hdecode

/-- R24, R181: in WRIT_COMMIT the block fits TB. -/
theorem block_fits_of_writCommit {s : State} (hshape : s.shapeFault = none) (hstate : s.engState = .writCommit) :
    s.cmdLen.toNat + 2 ≤ s.tb.length := by
  obtain ⟨-, htb, -, -, hlatch, -⟩ := shapeFault_eq_none.1 hshape
  simp only [latchOK, hstate, Bool.and_eq_true, decide_eq_true_eq] at hlatch
  omega

/-- What an engine's turn can do, state by state (R120). -/
theorem engineTurn_eq_next {s t : State} (hshape : s.shapeFault = none) (h : engineTurn s = .next t) :
    (s.linkOpen = false ∧ t = s) ∨
    (s.linkOpen = true ∧
      ((s.engState = .awaitFrame ∧ t = takeFrameByte s) ∨
      (s.engState = .dispatch ∧ ((∃ c, t = drop c s) ∨ ∃ i k, addressed i = some k ∧ exec i s = .next t)) ∨
      (s.engState = .writPayload ∧ t = takePayloadByte s) ∨
      (s.engState = .writCommit ∧
        execData (s.tb.take s.cmdLen.toNat) (rd16 s.tb s.cmdLen.toNat) s = .next t))) := by
  cases hlink : s.linkOpen with
  | false =>
    rw [engineTurn_of_closed hlink] at h
    exact .inl ⟨rfl, (Host.Outcome.next.inj h).symm⟩
  | true =>
    refine .inr ⟨rfl, ?_⟩
    cases hstate : s.engState with
    | awaitFrame =>
      rw [engineTurn_of_awaitFrame hlink hstate] at h
      exact .inl ⟨rfl, (Host.Outcome.next.inj h).symm⟩
    | dispatch =>
      rw [engineTurn_of_dispatch hlink hstate] at h
      obtain ⟨i, k, haddressed, hrun⟩ | ⟨c, hdrop⟩ := dispatchStep_cases s
      · exact .inr (.inl ⟨rfl, .inr ⟨i, k, haddressed, hrun ▸ h⟩⟩)
      · exact .inr (.inl ⟨rfl, .inl ⟨c, (Host.Outcome.next.inj (hdrop.symm.trans h)).symm⟩⟩)
    | writPayload =>
      rw [engineTurn_of_writPayload hlink hstate] at h
      exact .inr (.inr (.inl ⟨rfl, (Host.Outcome.next.inj h).symm⟩))
    | writCommit =>
      rw [engineTurn_of_writCommit hlink hstate, commitStep_eq (block_fits_of_writCommit hshape hstate)] at h
      exact .inr (.inr (.inr ⟨rfl, h⟩))

/-! ## ENG_STATE and the transmit stream under the engine's turn -/

/-- R107: a frame byte step stays in AWAIT_FRAME, or ends it with the tenth byte. -/
theorem takeFrameByte_engState {s : State} (hstate : s.engState = .awaitFrame) :
    (takeFrameByte s).engState = .awaitFrame ∨
      ((takeFrameByte s).engState = .dispatch ∧ s.fbCnt = 9 ∧ (takeFrameByte s).fbCnt = 10) := by
  cases hrx : s.rx with
  | nil => exact .inl (by rw [takeFrameByte_of_rx_nil hrx, hstate])
  | cons x rest =>
    rw [takeFrameByte_of_rx_cons hstate hrx]
    by_cases h9 : s.fbCnt = 9 <;> simp [h9]

/-- R185: a payload byte step stays in WRIT_PAYLOAD, or ends it with the last byte of the trailer. -/
theorem takePayloadByte_engState {s : State} (hshape : s.shapeFault = none) (hstate : s.engState = .writPayload) :
    (takePayloadByte s).engState = .writPayload ∨
      ((takePayloadByte s).engState = .writCommit ∧
        (takePayloadByte s).tbCnt = (takePayloadByte s).cmdLen.toNat + 2) := by
  cases hrx : s.rx with
  | nil => exact .inl (by rw [takePayloadByte_of_rx_nil hrx, hstate])
  | cons x rest =>
    rw [takePayloadByte_of_rx_cons hshape hstate hrx]
    by_cases hlast : s.tbCnt = s.cmdLen.toNat + 1 <;> simp [hlast]

theorem takeFrameByte_tx_dt (s : State) : (takeFrameByte s).tx = s.tx ∧ (takeFrameByte s).dt = s.dt := by
  unfold takeFrameByte
  split <;> exact ⟨rfl, rfl⟩

theorem takePayloadByte_tx_dt (s : State) : (takePayloadByte s).tx = s.tx ∧ (takePayloadByte s).dt = s.dt := by
  unfold takePayloadByte
  split <;> exact ⟨rfl, rfl⟩

/-- R131, R184: where a row leaves the engine, seen from the state it started in. -/
theorem exec_engState {i : Instr} {s t : State} (h : exec i s = .next t) :
    (t.engState = .awaitFrame ∧ t.fbCnt = 0) ∨ (t.engState = .writPayload ∧ t.tx = s.tx ++ readinessOK) := by
  obtain ⟨u, hprep, hend⟩ := exec_rowEnd h
  rw [← hprep.tx]
  exact hend.engState

/-- R188: DATA leaves the engine waiting, behind its WSTA. -/
theorem execData_engState {payload : List Byte} {k : U16} {s t : State} (h : execData payload k s = .next t) :
    t.engState = .awaitFrame ∧ ∃ o, t.tx = s.tx ++ encode (.wsta o) := by
  obtain ⟨u, o, hprep, rfl⟩ := execData_answer h
  exact ⟨rfl, o, by rw [← hprep.tx]; rfl⟩

/-- R120: the transitions the engine's own turn makes; with the link open it waits in AWAIT_FRAME and WRIT_PAYLOAD only. -/
theorem engineTurn_engState {s t : State} (hshape : s.shapeFault = none) (h : engineTurn s = .next t) :
    (t.engState = s.engState ∧ (s.linkOpen = true → s.engState = .awaitFrame ∨ s.engState = .writPayload)) ∨
    (s.engState = .awaitFrame ∧ t.engState = .dispatch ∧ s.fbCnt = 9 ∧ t.fbCnt = 10) ∨
    (s.engState = .dispatch ∧ t.engState = .awaitFrame ∧ t.fbCnt = 0) ∨
    (s.engState = .dispatch ∧ t.engState = .writPayload ∧ t.tx = s.tx ++ readinessOK) ∨
    (s.engState = .writPayload ∧ t.engState = .writCommit ∧ t.tbCnt = t.cmdLen.toNat + 2) ∨
    (s.engState = .writCommit ∧ t.engState = .awaitFrame ∧ ∃ o, t.tx = s.tx ++ encode (.wsta o)) := by
  obtain ⟨hlink, rfl⟩ | ⟨-, ⟨hs, rfl⟩ | ⟨hs, ⟨c, rfl⟩ | ⟨i, k, -, hexec⟩⟩ | ⟨hs, rfl⟩ | ⟨hs, hexec⟩⟩ :=
    engineTurn_eq_next hshape h
  · exact .inl ⟨rfl, by simp [hlink]⟩
  · obtain ht | ⟨ht, h9, h10⟩ := takeFrameByte_engState hs
    · exact .inl ⟨ht.trans hs.symm, fun _ => .inl hs⟩
    · exact .inr (.inl ⟨hs, ht, h9, h10⟩)
  · exact .inr (.inr (.inl ⟨hs, rfl, rfl⟩))
  · obtain ⟨ht, hcnt⟩ | ⟨ht, htx⟩ := exec_engState hexec
    · exact .inr (.inr (.inl ⟨hs, ht, hcnt⟩))
    · exact .inr (.inr (.inr (.inl ⟨hs, ht, htx⟩)))
  · obtain ht | ⟨ht, hcnt⟩ := takePayloadByte_engState hshape hs
    · exact .inl ⟨ht.trans hs.symm, fun _ => .inr hs⟩
    · exact .inr (.inr (.inr (.inr (.inl ⟨hs, ht, hcnt⟩))))
  · exact .inr (.inr (.inr (.inr (.inr ⟨hs, execData_engState hexec⟩))))

/-- R3, R133: a row run in a state of the rules' shape emits nothing or one response row. -/
theorem exec_tx {i : Instr} {s t : State} (hshape : s.shapeFault = none) (h : exec i s = .next t) :
    t.tx = s.tx ∨ ∃ r, isResponse r ∧ r.wf s.params = true ∧ t.tx = s.tx ++ encode r := by
  obtain ⟨u, hprep, hend⟩ := exec_rowEnd h
  obtain ⟨-, htb, -⟩ := shapeFault_eq_none.1 hshape
  rw [← hprep.tx, ← hprep.params]
  exact hend.tx (by rw [hprep.tb, hprep.params, htb])

theorem engineTurn_tx {s t : State} (hshape : s.shapeFault = none) (h : engineTurn s = .next t) :
    t.tx = s.tx ∨ ((s.engState = .dispatch ∨ s.engState = .writCommit) ∧
      ∃ r, isResponse r ∧ r.wf s.params = true ∧ t.tx = s.tx ++ encode r) := by
  obtain ⟨-, rfl⟩ | ⟨-, ⟨-, rfl⟩ | ⟨hs, ⟨c, rfl⟩ | ⟨i, k, -, hexec⟩⟩ | ⟨-, rfl⟩ | ⟨hs, hexec⟩⟩ :=
    engineTurn_eq_next hshape h
  · exact .inl rfl
  · exact .inl (takeFrameByte_tx_dt s).1
  · exact .inl rfl
  · exact (exec_tx hshape hexec).imp_right fun hr => ⟨.inl hs, hr⟩
  · exact .inl (takePayloadByte_tx_dt s).1
  · exact (exec_tx (i := .data _ _) hshape hexec).imp_right fun hr => ⟨.inr hs, hr⟩

/-- R28, R29: no engine's turn writes a slot's `mounted`, `handle` or `maxTrack`. -/
theorem engineTurn_slots {s t : State} (hshape : s.shapeFault = none) (h : engineTurn s = .next t) (j : Nat) :
    (t.slot j).mounted = (s.slot j).mounted ∧ (t.slot j).handle = (s.slot j).handle ∧
      (t.slot j).maxTrack = (s.slot j).maxTrack := by
  obtain ⟨-, rfl⟩ | ⟨-, ⟨-, rfl⟩ | ⟨-, ⟨c, rfl⟩ | ⟨i, k, -, hexec⟩⟩ | ⟨-, rfl⟩ | ⟨-, hexec⟩⟩ :=
    engineTurn_eq_next hshape h
  · exact ⟨rfl, rfl, rfl⟩
  · rw [slot_congr (takeFrameByte_tx_dt s).2]
    exact ⟨rfl, rfl, rfl⟩
  · exact ⟨rfl, rfl, rfl⟩
  · exact exec_slots hexec j
  · rw [slot_congr (takePayloadByte_tx_dt s).2]
    exact ⟨rfl, rfl, rfl⟩
  · exact exec_slots (i := .data _ _) hexec j

/-! ## The other agents' events -/

/-- The engine is where it was, and nothing was emitted. -/
structure Quiet (s t : State) : Prop where
  engState : t.engState = s.engState
  tx : t.tx = s.tx

theorem quiet_byteArrives (b : Byte) (s : State) : Quiet s (byteArrives b s) := by
  unfold byteArrives
  split <;> exact ⟨rfl, rfl⟩

theorem quiet_frameDeadline (s : State) : Quiet s (frameDeadline s) := by
  unfold frameDeadline
  split <;> exact ⟨rfl, rfl⟩

theorem quiet_performRequest (r : OpRequest) (s : State) : Quiet s (performRequest r s) := by
  unfold performRequest
  split
  · cases r <;> exact ⟨rfl, rfl⟩
  · exact ⟨rfl, rfl⟩

theorem quiet_operatorRequest (r : OpRequest) (s : State) : Quiet s (operatorRequest r s) := by
  unfold operatorRequest
  split_ifs
  · exact ⟨rfl, rfl⟩
  · exact quiet_performRequest r s
  · exact ⟨rfl, rfl⟩
  · exact ⟨rfl, rfl⟩

theorem quiet_performHeld (s : State) : Quiet s (performHeld s) := by
  unfold performHeld
  split
  · split
    · exact ⟨(quiet_performRequest _ _).engState, (quiet_performRequest _ _).tx⟩
    · exact ⟨rfl, rfl⟩
  · exact ⟨rfl, rfl⟩

/-- R187: the payload timeout has an effect in WRIT_PAYLOAD only, where it answers CHECKSUM_ERROR. -/
theorem payloadTimeout_cases (s : State) :
    payloadTimeout s = s ∨ (s.engState = .writPayload ∧
      payloadTimeout s = answerWsta .checksumError (raiseDiag .shortPayload s)) := by
  by_cases h : s.engState = .writPayload
  · exact .inr ⟨h, if_pos h⟩
  · exact .inl (if_neg h)

theorem linkDown_tx_dt (s : State) : (linkDown s).tx = s.tx ∧ (linkDown s).dt = s.dt := by
  unfold linkDown
  split <;> exact ⟨rfl, rfl⟩

theorem linkDown_engState (s : State) :
    (linkDown s).engState = s.engState ∨ (linkDown s).engState = .awaitFrame := by
  unfold linkDown
  split
  · exact .inr rfl
  · exact .inl rfl

/-- The events of the other agents that neither emit nor move the engine. -/
theorem quiet_runEvent {e : Event} {s t : State} (h : runEvent e s = .next t) (hengine : e ≠ .engine)
    (htimeout : e ≠ .payloadTimeout) (hdown : e ≠ .linkDown) (hreset : e ≠ .reset) : Quiet s t := by
  cases e with
  | engine => exact absurd rfl hengine
  | payloadTimeout => exact absurd rfl htimeout
  | linkDown => exact absurd rfl hdown
  | reset => exact absurd rfl hreset
  | byte b =>
    cases h
    exact quiet_byteArrives b s
  | frameDeadline =>
    cases h
    exact quiet_frameDeadline s
  | request r =>
    cases h
    exact quiet_operatorRequest r s
  | performHeld =>
    cases h
    exact quiet_performHeld s
  | status | linkUp =>
    cases h
    exact ⟨rfl, rfl⟩

/-- R120: `t` is `s` after a transition of the table that the event `e` makes, or in the same engine state. -/
def EngineTransition (e : Event) (s t : State) : Prop :=
  t.engState = s.engState ∨
    (s.engState = .awaitFrame ∧ t.engState = .dispatch ∧ e = .engine ∧ s.fbCnt = 9 ∧ t.fbCnt = 10) ∨
    (s.engState = .dispatch ∧ t.engState = .awaitFrame ∧ e = .engine ∧ t.fbCnt = 0) ∨
    (s.engState = .dispatch ∧ t.engState = .writPayload ∧ e = .engine ∧ t.tx = s.tx ++ readinessOK) ∨
    (s.engState = .writPayload ∧ t.engState = .writCommit ∧ e = .engine ∧ t.tbCnt = t.cmdLen.toNat + 2) ∨
    (s.engState = .writPayload ∧ t.engState = .awaitFrame ∧ e = .payloadTimeout ∧ t.tx = s.tx ++ wstaChecksumError) ∨
    (s.engState = .writCommit ∧ t.engState = .awaitFrame ∧ e = .engine ∧ ∃ o, t.tx = s.tx ++ encode (.wsta o)) ∨
    (t.engState = .awaitFrame ∧ (e = .reset ∨ e = .linkDown))

theorem engineTransition_of_quiet {s t : State} (e : Event) (h : Quiet s t) : EngineTransition e s t := .inl h.engState

theorem engineTransition_engineTurn {s t : State} (hshape : s.shapeFault = none) (h : engineTurn s = .next t) :
    EngineTransition .engine s t := by
  unfold EngineTransition
  obtain ⟨ht, -⟩ | ⟨hs, ht, hcnt⟩ | ⟨hs, ht, hcnt⟩ | ⟨hs, ht, htx⟩ | ⟨hs, ht, hcnt⟩ | ⟨hs, ht, htx⟩ :=
    engineTurn_engState hshape h
  · exact .inl ht
  · exact .inr (.inl ⟨hs, ht, rfl, hcnt⟩)
  · exact .inr (.inr (.inl ⟨hs, ht, rfl, hcnt⟩))
  · exact .inr (.inr (.inr (.inl ⟨hs, ht, rfl, htx⟩)))
  · exact .inr (.inr (.inr (.inr (.inl ⟨hs, ht, rfl, hcnt⟩))))
  · exact .inr (.inr (.inr (.inr (.inr (.inr (.inl ⟨hs, ht, rfl, htx⟩))))))

theorem engineTransition_runEvent {e : Event} {s t : State} (hshape : s.shapeFault = none)
    (h : runEvent e s = .next t) : EngineTransition e s t := by
  cases e with
  | engine => exact engineTransition_engineTurn hshape h
  | payloadTimeout =>
    cases h
    obtain hsame | ⟨hs, htimeout⟩ := payloadTimeout_cases s
    · exact .inl (by rw [hsame])
    · rw [htimeout]
      exact .inr (.inr (.inr (.inr (.inr (.inl ⟨hs, rfl, rfl, rfl⟩)))))
  | linkDown =>
    cases h
    exact (linkDown_engState s).imp_right fun ht =>
      .inr (.inr (.inr (.inr (.inr (.inr ⟨ht, .inr rfl⟩)))))
  | reset =>
    cases h
    exact .inr (.inr (.inr (.inr (.inr (.inr (.inr ⟨rfl, .inl rfl⟩))))))
  | byte _ | frameDeadline | request _ | performHeld | status | linkUp =>
    exact engineTransition_of_quiet _ (quiet_runEvent h (by simp) (by simp) (by simp) (by simp))

/-- R120: with the link open, the engine's turn in DISPATCH and WRIT_COMMIT leaves that state. -/
theorem engineTurn_moves {s t : State} (hshape : s.shapeFault = none) (h : engineTurn s = .next t)
    (hlink : s.linkOpen = true) (hs : s.engState = .dispatch ∨ s.engState = .writCommit) : t.engState ≠ s.engState := by
  obtain ⟨-, hwait⟩ | ⟨hs', ht, -⟩ | ⟨hs', ht, -⟩ | ⟨hs', ht, -⟩ | ⟨hs', ht, -⟩ | ⟨hs', ht, -⟩ :=
    engineTurn_engState hshape h
  · obtain hs | hs := hs <;> simp [hs, hlink] at hwait
  all_goals simp [hs', ht]

/-- Settles O48: every event makes a transition of the table or none, and the engine's turn moves where it does not wait. -/
theorem engineStateTransitions : Obligations.EngineStateTransitions := by
  intro s t h
  obtain ⟨ts, ⟨he, rfl⟩ | ⟨-, hshape, hrun⟩⟩ := step_eq_next_turns h
  · exact ⟨.inr (.inr (.inr (.inr (.inr (.inr (.inr ⟨rfl, .inl he⟩)))))), fun h' => by simp [he] at h'⟩
  · refine ⟨engineTransition_runEvent (s := { s with turns := ts }) hshape hrun, fun he hlink hs => ?_⟩
    rw [he] at hrun
    exact engineTurn_moves (s := { s with turns := ts }) hshape hrun hlink hs

/-- Settles O49: the engine's turn and the payload timeout are the only events that emit, one response row each. -/
theorem aStepEmitsOneResponse : Obligations.AStepEmitsOneResponse := by
  intro s t h
  obtain ⟨ts, ⟨-, rfl⟩ | ⟨hreset, hshape, hrun⟩⟩ := step_eq_next_turns h
  · exact .inl rfl
  · cases he : (takeTurn s).1 with
    | engine =>
      rw [he] at hrun
      exact (engineTurn_tx (s := { s with turns := ts }) hshape hrun).imp_right
        fun ⟨hs, r, hr, hwf, htx⟩ => ⟨r, hr, hwf, htx, .inl ⟨rfl, hs⟩⟩
    | payloadTimeout =>
      rw [he] at hrun
      cases hrun
      obtain hsame | ⟨hs, htimeout⟩ := payloadTimeout_cases { s with turns := ts }
      · exact .inl (by rw [hsame])
      · exact .inr ⟨.wsta .checksumError, trivial, rfl, by rw [htimeout]; rfl, .inr ⟨rfl, hs, rfl⟩⟩
    | linkDown =>
      rw [he] at hrun
      cases hrun
      exact .inl (linkDown_tx_dt _).1
    | reset => exact absurd he hreset
    | byte _ | frameDeadline | request _ | performHeld | status | linkUp =>
      rw [he] at hrun
      exact .inl (quiet_runEvent hrun (by simp) (by simp) (by simp) (by simp)).tx

/-! ## The slots (R28, R29, R243) -/

/-- The agents other than the engine, the operator's requests and the platform leave the table. -/
theorem runEvent_slots {e : Event} {s t : State} (hshape : s.shapeFault = none) (h : runEvent e s = .next t)
    (hreset : e ≠ .reset) (hheld : e ≠ .performHeld) (hrequest : ∀ r, e ≠ .request r) (j : Nat) :
    (t.slot j).mounted = (s.slot j).mounted ∧ (t.slot j).handle = (s.slot j).handle ∧
      (t.slot j).maxTrack = (s.slot j).maxTrack := by
  have hkeep : t.dt = s.dt → (t.slot j).mounted = (s.slot j).mounted ∧ (t.slot j).handle = (s.slot j).handle ∧
      (t.slot j).maxTrack = (s.slot j).maxTrack := fun hdt => by
    rw [slot_congr hdt]
    exact ⟨rfl, rfl, rfl⟩
  cases e with
  | engine => exact engineTurn_slots hshape h j
  | reset => exact absurd rfl hreset
  | performHeld => exact absurd rfl hheld
  | request r => exact absurd rfl (hrequest r)
  | byte b =>
    cases h
    refine hkeep ?_
    unfold byteArrives
    split <;> rfl
  | frameDeadline =>
    cases h
    refine hkeep ?_
    unfold frameDeadline
    split <;> rfl
  | payloadTimeout =>
    cases h
    refine hkeep ?_
    obtain hsame | ⟨-, htimeout⟩ := payloadTimeout_cases s
    · rw [hsame]
    · rw [htimeout]
      rfl
  | linkDown =>
    cases h
    exact hkeep (linkDown_tx_dt s).2
  | status | linkUp =>
    cases h
    exact ⟨rfl, rfl, rfl⟩

/-- Settles O51: neither the engine nor any other agent writes these fields. -/
theorem onlyTheOperatorMounts : Obligations.OnlyTheOperatorMounts := by
  intro s t h hreset hheld hrequest d
  obtain ⟨ts, ⟨he, -⟩ | ⟨-, hshape, hrun⟩⟩ := step_eq_next_turns h
  · exact absurd he hreset
  · exact runEvent_slots (s := { s with turns := ts }) hshape hrun hreset hheld hrequest d

end Sys2Proof.Machine
end

section
/-! PROOF. The invariant (10_state.md R28 to R39, 41_dispatcher.md R120, R129), cut in two: what holds in every engine
state, which each operation keeps, and what the engine state asks of the counts, the latch and the link. -/

namespace Sys2Proof.Machine

open Sys2Proof.Claims

/-! ## The invariant in two halves -/

/-- The clauses of the invariant that do not speak of ENG_STATE. -/
structure Sound (s : State) : Prop where
  params : s.params.wf = true
  table : s.dt.length = s.params.nDrives
  buffer : s.tb.length = s.params.maxTrackLen + 2
  count : s.tbCnt ≤ s.params.maxTrackLen + 2
  counters : s.statCnt < 2 ^ s.params.ctrW ∧ s.readCnt < 2 ^ s.params.ctrW ∧ s.writCnt < 2 ^ s.params.ctrW ∧
    s.errCnt < 2 ^ s.params.ctrW
  lastErr : s.lastErr.toNat ≤ 12
  oneEnabled : ∀ i < s.params.nDrives, ∀ j < s.params.nDrives,
    (s.slot i).enabled = true → (s.slot j).enabled = true → i = j
  headEnabled : ∀ i < s.params.nDrives, (s.slot i).headLoaded = true → (s.slot i).enabled = true
  slots : ∀ d < s.params.nDrives, SlotOK s d
  held : s.opPend.all (fun r => r.accepted s.params) = true
  handles : keysRising s.files = true
  canonical : s.files.all (fun c => c.2.wf) = true
  positions : s.storePos.length = s.params.nDrives

/-- The clauses of the invariant that ENG_STATE decides. -/
structure Phase (s : State) : Prop where
  frame : frameCountOK s = true
  payload : payloadCountOK s = true
  latch : latchOK s = true
  link : linkOK s = true
  latched : s.writOpen = true →
    (s.slot s.cmdDrv.toNat).mounted = true ∧ s.cmdTrk.zeroExtend 16 ≤ (s.slot s.cmdDrv.toNat).maxTrack

/-- R25, R181: in every engine state TB_CNT is within TB. -/
theorem tbCnt_le_of_shape {s : State} (hpayload : payloadCountOK s = true) (hlatch : latchOK s = true) :
    s.tbCnt ≤ s.params.maxTrackLen + 2 := by
  unfold payloadCountOK at hpayload
  unfold latchOK at hlatch
  cases hs : s.engState <;> simp only [hs, Bool.and_eq_true, decide_eq_true_eq] at hpayload hlatch <;> omega

theorem inv_iff {s : State} : Inv s ↔ Sound s ∧ Phase s := by
  constructor
  · intro h
    obtain ⟨htable, hbuffer, hframe, hpayload, hlatch, hlink, -⟩ := shapeFault_eq_none.1 h.shape
    exact ⟨{ h with table := htable, buffer := hbuffer, count := tbCnt_le_of_shape hpayload hlatch },
      ⟨hframe, hpayload, hlatch, hlink, h.latched⟩⟩
  · rintro ⟨h, hp⟩
    exact { h with
      shape := shapeFault_eq_none.2 ⟨h.table, h.buffer, hp.frame, hp.payload, hp.latch, hp.link, h.params⟩
      latched := hp.latched }

theorem Inv.sound {s : State} (h : Inv s) : Sound s := (inv_iff.1 h).1

theorem Inv.phase {s : State} (h : Inv s) : Phase s := (inv_iff.1 h).2

/-- What AWAIT_FRAME asks: an incomplete frame, empty while the link is closed. -/
theorem inv_of_awaitFrame {s : State} (h : Sound s) (hs : s.engState = .awaitFrame) (hcnt : s.fbCnt ≤ 9)
    (hlink : s.linkOpen = true ∨ s.fbCnt = 0) : Inv s :=
  inv_iff.2 ⟨h, {
    frame := by simpa [frameCountOK, hs] using hcnt
    payload := by simpa [payloadCountOK, hs] using h.count
    latch := by simp [latchOK, hs]
    link := by simpa [linkOK, hs] using hlink
    latched := by simp [State.writOpen, hs] }⟩

/-! ## A slot in a state of the rules -/

theorem openStore_isSome_iff {s : State} {d : Nat} : (s.openStore d).isSome = true ↔
    (s.slot d).mounted = true ∧ ∃ h, (s.slot d).handle = some h ∧ (kvGet s.files h).isSome = true := by
  unfold State.openStore
  cases (s.slot d).mounted <;> cases (s.slot d).handle <;> simp

/-- The clauses R28 and R39 put on a slot, case by case. -/
theorem slotOK_iff {s : State} {d : Nat} : SlotOK s d ↔
    ((s.slot d).mounted = true → (∃ h, (s.slot d).handle = some h ∧ (kvGet s.files h).isSome = true) ∧
      (s.slot d).maxTrack ∈ tierValues s.params.tiers) ∧
    ((s.slot d).mounted = false → (s.slot d).handle = none ∧ (s.slot d).maxTrack = 0) := by
  rw [SlotOK, openStore_isSome_iff]
  cases (s.slot d).mounted <;> simp

/-- A slot whose fields stay, in a state that keeps every file listed, stays as the rules have it. -/
theorem SlotOK.of_keeps {s t : State} {d : Nat} (h : SlotOK s d) (hparams : t.params = s.params)
    (hslot : (t.slot d).mounted = (s.slot d).mounted ∧ (t.slot d).handle = (s.slot d).handle ∧
      (t.slot d).maxTrack = (s.slot d).maxTrack)
    (hfiles : ∀ h, (kvGet s.files h).isSome = true → (kvGet t.files h).isSome = true) : SlotOK t d := by
  obtain ⟨hmounted, hhandle, hmax⟩ := hslot
  rw [slotOK_iff] at h ⊢
  rw [hmounted, hhandle, hmax, hparams]
  refine ⟨fun hm => ?_, h.2⟩
  obtain ⟨⟨hd, hh, hf⟩, htier⟩ := h.1 hm
  exact ⟨⟨hd, hh, hfiles hd hf⟩, htier⟩

/-! ## Each operation keeps the half that ENG_STATE does not decide -/

theorem ctrInc_lt (p : Params) (n : Nat) : ctrInc p n < 2 ^ p.ctrW := Nat.mod_lt _ (Nat.two_pow_pos _)

/-- R232: no code is past 12. -/
theorem diagCode_le (c : Diag) : (diagCode c).toNat ≤ 12 := by cases c <;> decide

section Operations

variable {s : State}

theorem Sound.raiseDiag (h : Sound s) (c : Diag) : Sound (raiseDiag c s) := by
  obtain ⟨hstat, hread, hwrit, -⟩ := h.counters
  exact { h with counters := ⟨hstat, hread, hwrit, ctrInc_lt _ _⟩, lastErr := diagCode_le c }

theorem Sound.bumpStat (h : Sound s) : Sound s.bumpStat := by
  obtain ⟨-, hread, hwrit, herr⟩ := h.counters
  exact { h with counters := ⟨ctrInc_lt _ _, hread, hwrit, herr⟩ }

theorem Sound.bumpRead (h : Sound s) : Sound s.bumpRead := by
  obtain ⟨hstat, -, hwrit, herr⟩ := h.counters
  exact { h with counters := ⟨hstat, ctrInc_lt _ _, hwrit, herr⟩ }

theorem Sound.bumpWrit (h : Sound s) : Sound s.bumpWrit := by
  obtain ⟨hstat, hread, -, herr⟩ := h.counters
  exact { h with counters := ⟨hstat, hread, ctrInc_lt _ _, herr⟩ }

theorem Sound.finish (h : Sound s) : Sound (finish s) := { h with }

theorem Sound.emit (h : Sound s) (bytes : List Byte) : Sound (emit bytes s) := { h with }

theorem Sound.latch (h : Sound s) (drv : BitVec 4) (trk : BitVec 12) (len : U16) : Sound (s.latch drv trk len) :=
  { h with }

theorem Sound.turns (h : Sound s) (ts : List Event) : Sound { s with turns := ts } := { h with }

theorem Sound.setPos (h : Sound s) (d p : Nat) : Sound (s.setPos d p) :=
  { h with positions := (List.length_set ..).trans h.positions }

/-- R32, R127: behind a selection the one enabled slot is the selected one. -/
theorem enabled_select {d : Nat} {b : Bool} {j : Nat} (h : ((s.select d b).slot j).enabled = true) : d = j := by
  rw [slot_select] at h
  split at h
  · rename_i hd
    exact hd.1
  · cases h

theorem headLoaded_select {d : Nat} {b : Bool} {j : Nat} (h : ((s.select d b).slot j).headLoaded = true) :
    ((s.select d b).slot j).enabled = true := by
  rw [slot_select] at h ⊢
  split at h
  · rename_i hd
    rw [if_pos hd]
  · cases h

theorem Sound.select (h : Sound s) (d : Nat) (b : Bool) : Sound (s.select d b) :=
  { h with
    table := (length_selectDrive ..).trans h.table
    oneEnabled := fun _ _ _ _ hi hj => (enabled_select hi).symm.trans (enabled_select hj)
    headEnabled := fun _ _ => headLoaded_select
    slots := fun j hj => (h.slots j hj).of_keeps rfl (slot_select_keeps d b s j) fun _ => id }

theorem Sound.setCurTrack (h : Sound s) (d : Nat) (t : U16) : Sound (s.setCurTrack d t) :=
  { h with
    table := (List.length_modify ..).trans h.table
    oneEnabled := fun i hi j hj => by
      rw [(slot_setCurTrack_flags d t s i).1, (slot_setCurTrack_flags d t s j).1]
      exact h.oneEnabled i hi j hj
    headEnabled := fun i hi => by
      rw [(slot_setCurTrack_flags d t s i).1, (slot_setCurTrack_flags d t s i).2]
      exact h.headEnabled i hi
    slots := fun j hj => (h.slots j hj).of_keeps rfl (slot_setCurTrack_keeps d t s j) fun _ => id }

theorem Sound.aimed (h : Sound s) (drv : BitVec 4) (trk : BitVec 12) : Sound (s.aimed drv trk) :=
  (h.select _ _).setCurTrack _ _

theorem Sound.dropDraw (h : Sound s) : Sound s.dropDraw := by
  unfold State.dropDraw
  split <;> exact { h with }

theorem Sound.answered (h : Sound s) : Sound s.answered := by
  unfold State.answered
  split
  · exact h
  · exact h.dropDraw

theorem Sound.setFile (h : Sound s) {f : File} (hd : Handle) (hf : f.wf = true) : Sound (s.setFile hd f) :=
  { h with
    slots := fun j hj => (h.slots j hj).of_keeps rfl ⟨rfl, rfl, rfl⟩ fun h' hsome => by
      by_cases hh : h' = hd
      · rw [hh, setFile_files, kvGet_kvPut_same]
        rfl
      · rwa [setFile_files, kvGet_kvPut_other _ _ hh]
    handles := keysRising_kvPut hd f h.handles
    canonical := List.all_eq_true.2 fun c hc => by
      obtain rfl | hc := mem_kvPut hc
      · exact hf
      · exact List.all_eq_true.1 h.canonical c hc }

theorem Sound.readSeek (h : Sound s) (d off : Nat) : Sound (readSeek d off s) := by
  obtain ⟨p, heq | heq⟩ := readSeek_cases d off s
  · exact heq ▸ h.answered.setPos d p
  · exact heq ▸ (h.answered.setPos d p).raiseDiag .seekFailure

theorem Sound.storeRead (h : Sound s) {sought : Bool} {d n : Nat} {t : State} {bytes : List Byte}
    (hread : storeRead sought d n s = some (bytes, t)) : Sound t := by
  obtain ⟨_, _, -, -, -, rfl⟩ := storeRead_eq_some hread
  exact h.answered.setPos _ _

theorem Sound.storeWrite (h : Sound s) {d k : Nat} {t : State} {bytes : List Byte}
    (hwrite : storeWrite d bytes s = some (k, t)) : Sound t := by
  obtain ⟨hd, f, hopen, -, rfl⟩ := storeWrite_eq_some hwrite
  obtain ⟨-, -, hfile⟩ := openStore_eq_some hopen
  have hwf : f.wf = true := List.all_eq_true.1 h.canonical _ (mem_of_kvGet hfile)
  exact (h.answered.setFile hd (wf_written _ _ _ hwf)).setPos _ _

/-- R24: a block that fits leaves TB as long as it was. -/
theorem Sound.answerTrack (h : Sound s) {bytes : List Byte} (hfit : bytes.length + 2 ≤ s.tb.length) :
    Sound (answerTrack bytes s) := by
  have hbuffer : (makeTrack bytes ++ s.tb.drop (bytes.length + 2)).length = s.params.maxTrackLen + 2 := by
    rw [List.length_append, length_makeTrack, List.length_drop, ← h.buffer]
    omega
  exact { h with buffer := hbuffer }

theorem Sound.statUpdate (h : Sound s) (sel hl : BitVec 8) (trk : U16) : Sound (statUpdate sel hl trk s) := by
  unfold Sys2Proof.Machine.statUpdate
  split
  · exact (h.select _ _).setCurTrack _ _
  · exact h

theorem inv_finish (h : Sound s) : Inv (finish s) := inv_of_awaitFrame h.finish rfl (Nat.zero_le _) (.inr rfl)

end Operations

/-! ## Each row a step runs keeps the invariant -/

theorem execStat_inv {s t : State} {sel hl : BitVec 8} {trk : U16} (h : Sound s)
    (hexec : execStat sel hl trk s = .next t) : Inv t := by
  cases hexec
  exact inv_finish ((h.bumpStat.statUpdate sel hl trk).emit _)

theorem readTrack_inv {s t : State} {d off : Nat} {len : U16} (h : Sound s) (hexec : readTrack d off len s = .next t) :
    Inv t := by
  obtain ⟨bytes, v, hread, ⟨-, rfl⟩ | ⟨hlen, hfit, rfl⟩⟩ := readTransfer_eq_next hexec
  · exact inv_finish (((h.readSeek d off).storeRead hread).raiseDiag _)
  · have hsound := ((h.readSeek d off).storeRead hread).answerTrack (hlen ▸ hfit)
    exact inv_of_awaitFrame hsound rfl (Nat.zero_le _) (.inr rfl)

theorem execRead_inv {s t : State} {drv : BitVec 4} {trk : BitVec 12} {len : U16} (h : Sound s)
    (hexec : execRead drv trk len s = .next t) : Inv t := by
  obtain ⟨-, rfl⟩ | ⟨-, c, -, rfl⟩ | ⟨-, -, htrack⟩ := execRead_eq_next hexec
  · exact inv_finish (h.bumpRead.raiseDiag _)
  · exact inv_finish ((h.bumpRead.select _ _).raiseDiag _)
  · exact readTrack_inv (h.bumpRead.aimed drv trk) htrack

/-- R181, R184: what the passed checks say of the latch. -/
theorem inv_answerReady_ok {s : State} {drv : BitVec 4} {trk : BitVec 12} {len : U16} (h : Sound s)
    (hlink : s.linkOpen = true) (hdrv : drv.toNat < s.params.nDrives) (hpass : ¬CheckFails s drv trk len) :
    Inv (answerReady .ok (s.latch drv trk len)) := by
  simp only [CheckFails, not_or, Bool.not_eq_false, Nat.not_lt] at hpass
  obtain ⟨hmounted, hlen, htrk⟩ := hpass
  have htrk' : trk.zeroExtend 16 ≤ (s.slot drv.toNat).maxTrack := by
    rwa [BitVec.le_def, BitVec.toNat_setWidth_of_le (by decide)]
  rw [answerReady_ok_eq]
  exact inv_iff.2 ⟨{ h with count := Nat.zero_le _ }, {
    frame := rfl
    payload := by simp [payloadCountOK]
    latch := by simp [latchOK, driveOK, hdrv, hlen]
    link := by simp [linkOK, hlink]
    latched := fun _ => ⟨hmounted, htrk'⟩ }⟩

theorem execWrit_inv {s t : State} {drv : BitVec 4} {trk : BitVec 12} {len : U16} (h : Sound s)
    (hlink : s.linkOpen = true) (hexec : execWrit drv trk len s = .next t) : Inv t := by
  obtain ⟨-, rfl⟩ | ⟨-, c, -, rfl⟩ | ⟨hdrv, hcheck, rfl⟩ := execWrit_eq_next hexec
  · exact inv_finish (h.bumpWrit.raiseDiag _)
  · exact inv_finish (((h.bumpWrit.select _ _).raiseDiag c).emit _)
  · have hsound : Sound (s.bumpWrit.aimed drv trk) := h.bumpWrit.aimed drv trk
    have hpass : ¬CheckFails (s.bumpWrit.aimed drv trk) drv trk len := by
      obtain ⟨hmounted, -, hmax⟩ :=
        slot_setCurTrack_keeps drv.toNat (trk.zeroExtend 16) (s.bumpWrit.select drv.toNat true) drv.toNat
      refine trackCheck_eq_none_iff.1 (Eq.trans ?_ hcheck)
      exact trackCheck_congr trk len rfl hmounted hmax
    exact inv_answerReady_ok hsound hlink hdrv hpass

theorem execData_inv {s t : State} {payload : List Byte} {k : U16} (h : Sound s)
    (hexec : execData payload k s = .next t) : Inv t := by
  obtain ⟨-, ⟨-, rfl⟩ | ⟨-, p, ⟨-, rfl⟩ | ⟨-, m, u, hwrite, hend⟩⟩⟩ := execData_eq_next hexec
  · exact inv_finish ((h.raiseDiag _).emit _)
  · exact inv_finish (((h.answered.setPos _ _).raiseDiag _).emit _)
  · have hu : Sound u := (h.answered.setPos _ _).storeWrite hwrite
    obtain ⟨-, rfl⟩ | ⟨-, rfl⟩ := hend
    · exact inv_finish ((hu.raiseDiag _).emit _)
    · exact inv_finish (hu.emit _)

/-- Every command keeps the invariant. -/
theorem exec_inv_of_addressed {s t : State} {i : Instr} {k : Nat} (haddressed : addressed i = some k) (h : Sound s)
    (hlink : s.linkOpen = true) (hexec : exec i s = .next t) : Inv t := by
  cases i with
  | stat sel hl trk => exact execStat_inv h hexec
  | read drv trk len => exact execRead_inv h hexec
  | writ drv trk len => exact execWrit_inv h hlink hexec
  | statResp _ | writRdy _ | wsta _ | track _ | data _ _ => cases haddressed

/-! ## The engine's turn keeps the invariant -/

theorem takeFrameByte_inv {s : State} (h : Inv s) (hlink : s.linkOpen = true) (hs : s.engState = .awaitFrame) :
    Inv (takeFrameByte s) := by
  cases hrx : s.rx with
  | nil => rwa [takeFrameByte_of_rx_nil hrx]
  | cons x rest =>
    have hcnt : s.fbCnt ≤ 9 := fbCnt_le_of_awaitFrame h.shape hs
    rw [takeFrameByte_of_rx_cons hs hrx]
    by_cases h9 : s.fbCnt = 9
    · refine inv_iff.2 ⟨{ h.sound with }, ?_⟩
      have hcount := h.sound.count
      constructor <;> simp [frameCountOK, payloadCountOK, latchOK, linkOK, State.writOpen, h9, hlink, hcount]
    · exact inv_of_awaitFrame { h.sound with } (if_neg h9) (by show s.fbCnt + 1 ≤ 9; omega) (.inl hlink)

theorem takePayloadByte_inv {s : State} (h : Inv s) (hlink : s.linkOpen = true) (hs : s.engState = .writPayload) :
    Inv (takePayloadByte s) := by
  cases hrx : s.rx with
  | nil => rwa [takePayloadByte_of_rx_nil hrx]
  | cons x rest =>
    have hroom : s.tbCnt < s.tb.length := tbCnt_lt_length_tb h.shape hs
    have hframe := h.phase.frame
    have hpayload := h.phase.payload
    have hlatch := h.phase.latch
    simp only [frameCountOK, payloadCountOK, latchOK, hs, decide_eq_true_eq] at hframe hpayload hlatch
    have hlatched := h.phase.latched (by simp [State.writOpen, hs])
    have hbuffer : (s.tb.take s.tbCnt ++ x :: s.tb.drop (s.tbCnt + 1)).length = s.params.maxTrackLen + 2 := by
      rw [← List.set_eq_take_cons_drop x hroom, List.length_set, h.sound.buffer]
    have hcount : s.tbCnt + 1 ≤ s.params.maxTrackLen + 2 := h.sound.buffer ▸ hroom
    rw [takePayloadByte_of_rx_cons h.shape hs hrx]
    refine inv_iff.2 ⟨{ h.sound with buffer := hbuffer, count := hcount }, ?_⟩
    by_cases hlast : s.tbCnt = s.cmdLen.toNat + 1
    · exact {
        frame := by simp [frameCountOK, hlast, hframe]
        payload := by simp [payloadCountOK, hlast]
        latch := by simpa [latchOK, hlast] using hlatch
        link := by simp [linkOK, hlink]
        latched := fun _ => hlatched }
    · exact {
        frame := by simp [frameCountOK, hlast, hframe]
        payload := by simp only [payloadCountOK, if_neg hlast, decide_eq_true_eq]; omega
        latch := by simpa [latchOK, hlast] using hlatch
        link := by simp [linkOK, hlink]
        latched := fun _ => hlatched }

theorem engineTurn_inv {s t : State} (h : Inv s) (hturn : engineTurn s = .next t) : Inv t := by
  obtain ⟨-, rfl⟩ | ⟨hlink, ⟨hs, rfl⟩ | ⟨-, ⟨c, rfl⟩ | ⟨i, k, haddressed, hexec⟩⟩ | ⟨hs, rfl⟩ | ⟨-, hexec⟩⟩ :=
    engineTurn_eq_next h.shape hturn
  · exact h
  · exact takeFrameByte_inv h hlink hs
  · exact inv_finish (h.sound.raiseDiag c)
  · exact exec_inv_of_addressed haddressed h.sound hlink hexec
  · exact takePayloadByte_inv h hlink hs
  · exact execData_inv h.sound hexec

/-! ## The other agents' events keep the invariant -/

theorem byteArrives_inv {s : State} (h : Inv s) (b : Byte) : Inv (byteArrives b s) := by
  unfold byteArrives
  split
  · exact inv_iff.2 ⟨{ h.sound with }, { h.phase with }⟩
  · exact h

theorem frameDeadline_inv {s : State} (h : Inv s) : Inv (frameDeadline s) := by
  unfold frameDeadline
  split
  · rename_i hpartial
    exact inv_of_awaitFrame { h.sound.raiseDiag .partialFrame with } hpartial.1 (Nat.zero_le _) (.inr rfl)
  · exact h

theorem payloadTimeout_inv {s : State} (h : Inv s) : Inv (payloadTimeout s) := by
  obtain hsame | ⟨-, htimeout⟩ := payloadTimeout_cases s
  · rwa [hsame]
  · rw [htimeout]
    exact inv_finish ((h.sound.raiseDiag _).emit _)

theorem readStatus_inv {s : State} (h : Inv s) : Inv (readStatus s) :=
  inv_iff.2 ⟨{ h.sound with }, { h.phase with }⟩

theorem linkUp_inv {s : State} (h : Inv s) : Inv (linkUp s) :=
  inv_iff.2 ⟨{ h.sound with }, { h.phase with link := rfl }⟩

theorem linkDown_inv {s : State} (h : Inv s) : Inv (linkDown s) := by
  unfold linkDown
  split
  · exact inv_of_awaitFrame { h.sound with count := Nat.zero_le _ } rfl (Nat.zero_le _) (.inr rfl)
  · exact h

/-! ## MOUNT and UNMOUNT keep the invariant -/

/-- R213: the highest track of a mounted slot is one of the three tier values. -/
theorem tierMaxTrack_mem (t : TierTable) (size : Nat) : tierMaxTrack t size ∈ tierValues t := by
  unfold tierMaxTrack tierCount tierValues
  split_ifs <;> simp

theorem slotOK_of_empty {s : State} {d : Nat} (h : s.slot d = .empty) : SlotOK s d := by
  rw [slotOK_iff, h]
  exact ⟨fun hm => (Bool.false_ne_true hm).elim, fun _ => ⟨rfl, rfl⟩⟩

/-- UNMOUNT never raises a flag. -/
theorem flags_unmountSlot {x : Slot} (hhead : x.headLoaded = true → x.enabled = true) :
    ((unmountSlot x).enabled = true → x.enabled = true) ∧
      ((unmountSlot x).headLoaded = true → (unmountSlot x).enabled = true) := by
  cases hm : x.mounted with
  | true =>
    rw [unmountSlot_of_mounted hm]
    exact ⟨fun h => (Bool.false_ne_true h).elim, fun h => (Bool.false_ne_true h).elim⟩
  | false =>
    rw [unmountSlot_of_unmounted hm]
    exact ⟨id, hhead⟩

/-- R32: a table whose flags rise nowhere keeps the selection invariant. -/
theorem selection_of_flags {s t : State} (h : Sound s) (hparams : t.params = s.params)
    (hflags : ∀ j < s.params.nDrives, ((t.slot j).enabled = true → (s.slot j).enabled = true) ∧
      ((t.slot j).headLoaded = true → (t.slot j).enabled = true)) :
    (∀ i < t.params.nDrives, ∀ j < t.params.nDrives, (t.slot i).enabled = true → (t.slot j).enabled = true → i = j) ∧
      ∀ i < t.params.nDrives, (t.slot i).headLoaded = true → (t.slot i).enabled = true := by
  rw [hparams]
  exact ⟨fun i hi j hj hi' hj' => h.oneEnabled i hi j hj ((hflags i hi).1 hi') ((hflags j hj).1 hj'),
    fun i hi => (hflags i hi).2⟩

/-- No request raises a flag. -/
theorem flags_performRequest (r : OpRequest) {s : State} {j : Nat}
    (hhead : (s.slot j).headLoaded = true → (s.slot j).enabled = true) :
    (((performRequest r s).slot j).enabled = true → (s.slot j).enabled = true) ∧
      (((performRequest r s).slot j).headLoaded = true → ((performRequest r s).slot j).enabled = true) := by
  cases hok : r.accepted s.params with
  | false =>
    rw [performRequest_of_refused hok]
    exact ⟨id, hhead⟩
  | true =>
    cases r with
    | mount d hd size =>
      rw [slot_performRequest_mount hd size (of_decide_eq_true hok)]
      split
      · exact flags_unmountSlot hhead
      · exact ⟨id, hhead⟩
    | unmount d =>
      rw [slot_performRequest_unmount (of_decide_eq_true hok)]
      split
      · exact flags_unmountSlot hhead
      · exact ⟨id, hhead⟩

/-- R211: a MOUNT opens the file of its slot, and keeps those of the others. -/
theorem slotOK_performRequest_mount {s : State} {d j : Nat} (hd : Handle) (size : U64) (hdrv : d < s.params.nDrives)
    (h : SlotOK s j) : SlotOK (performRequest (.mount d hd size) s) j := by
  have hslot := slot_performRequest_mount hd size hdrv j
  have hfiles : (performRequest (.mount d hd size) s).files = openFile hd size s.files := by
    rw [performRequest_mount hd size hdrv]
  by_cases hdj : d = j ∧ j < s.dt.length
  · rw [slotOK_iff, hslot, if_pos hdj, hfiles, performRequest_params]
    exact ⟨fun _ => ⟨⟨hd, rfl, kvGet_openFile_isSome hd size s.files⟩, tierMaxTrack_mem _ _⟩,
      fun hm => (Bool.false_ne_true hm.symm).elim⟩
  · refine h.of_keeps (performRequest_params _ _) (by rw [hslot, if_neg hdj]; exact ⟨rfl, rfl, rfl⟩) fun h' hsome => ?_
    obtain ⟨f, hf⟩ := Option.isSome_iff_exists.1 hsome
    rw [hfiles, kvGet_openFile_of_some hd size hf]
    rfl

/-- R214: an UNMOUNT empties its slot if that is mounted, and keeps the others. -/
theorem slotOK_performRequest_unmount {s : State} {d j : Nat} (hdrv : d < s.params.nDrives) (h : SlotOK s j) :
    SlotOK (performRequest (.unmount d) s) j := by
  have hslot := slot_performRequest_unmount hdrv j
  by_cases hm : (d = j ∧ j < s.dt.length) ∧ (s.slot j).mounted = true
  · exact slotOK_of_empty (by rw [hslot, if_pos hm.1, unmountSlot_of_mounted hm.2])
  · have hsame : (performRequest (.unmount d) s).slot j = s.slot j := by
      rw [hslot]
      split
      · rename_i hdj
        exact unmountSlot_of_unmounted (Bool.eq_false_iff.2 fun hmj => hm ⟨hdj, hmj⟩)
      · rfl
    exact h.of_keeps (performRequest_params _ _) (by rw [hsame]; exact ⟨rfl, rfl, rfl⟩)
      (by rw [performRequest_unmount hdrv]; exact fun _ => id)

theorem Sound.performRequest {s : State} (h : Sound s) (r : OpRequest) : Sound (performRequest r s) := by
  obtain ⟨hone, hhead⟩ := selection_of_flags h (performRequest_params r s) fun j hj =>
    flags_performRequest r (h.headEnabled j hj)
  cases hok : r.accepted s.params with
  | false => rwa [performRequest_of_refused hok]
  | true =>
    cases r with
    | mount d hd size =>
      have hdrv : d < s.params.nDrives := of_decide_eq_true hok
      have hslots := fun j (hj : j < s.params.nDrives) => slotOK_performRequest_mount hd size hdrv (h.slots j hj)
      rw [performRequest_mount hd size hdrv] at hone hhead hslots ⊢
      exact { h with
        table := (List.length_modify ..).trans h.table
        oneEnabled := hone
        headEnabled := hhead
        slots := hslots
        handles := keysRising_openFile hd size h.handles
        canonical := List.all_eq_true.2 fun c hc => by
          obtain rfl | hc := mem_openFile hc
          · exact File.wf_blank _
          · exact List.all_eq_true.1 h.canonical c hc
        positions := (List.length_set ..).trans h.positions }
    | unmount d =>
      have hdrv : d < s.params.nDrives := of_decide_eq_true hok
      have hslots := fun j (hj : j < s.params.nDrives) => slotOK_performRequest_unmount hdrv (h.slots j hj)
      rw [performRequest_unmount hdrv] at hone hhead hslots ⊢
      exact { h with
        table := (List.length_modify ..).trans h.table
        oneEnabled := hone
        headEnabled := hhead
        slots := hslots }

theorem performRequest_fbCnt_linkOpen (r : OpRequest) (s : State) :
    (performRequest r s).fbCnt = s.fbCnt ∧ (performRequest r s).linkOpen = s.linkOpen := by
  unfold Machine.performRequest
  split
  · cases r <;> exact ⟨rfl, rfl⟩
  · exact ⟨rfl, rfl⟩

/-- R216: a request is performed in AWAIT_FRAME only. -/
theorem performRequest_inv {s : State} (h : Inv s) (hs : s.engState = .awaitFrame) (r : OpRequest) :
    Inv (performRequest r s) := by
  obtain ⟨hcnt, hlink⟩ := performRequest_fbCnt_linkOpen r s
  refine inv_of_awaitFrame (h.sound.performRequest r) ((quiet_performRequest r s).engState.trans hs) ?_ ?_
  · rw [hcnt]
    exact fbCnt_le_of_awaitFrame h.shape hs
  · rw [hcnt, hlink]
    cases hopen : s.linkOpen with
    | true => exact .inl rfl
    | false => exact .inr (awaitFrame_of_closed h.shape hopen).2

theorem operatorRequest_inv {s : State} (h : Inv s) (r : OpRequest) : Inv (operatorRequest r s) := by
  unfold operatorRequest
  split_ifs with _ hs hok
  · exact h
  · exact performRequest_inv h hs r
  · exact inv_iff.2 ⟨{ h.sound with held := hok }, { h.phase with }⟩
  · exact h

theorem performHeld_inv {s : State} (h : Inv s) : Inv (performHeld s) := by
  have hclear : Inv { s with opPend := none } := inv_iff.2 ⟨{ h.sound with held := rfl }, { h.phase with }⟩
  unfold performHeld
  split
  · split
    · rename_i hs
      exact performRequest_inv hclear hs _
    · exact h
  · exact h

/-! ## Reset -/

theorem sound_powerOn {p : Params} (hp : p.wf = true) : Sound (State.powerOn p) where
  params := hp
  table := List.length_replicate
  buffer := List.length_replicate
  count := Nat.zero_le _
  counters := ⟨Nat.two_pow_pos _, Nat.two_pow_pos _, Nat.two_pow_pos _, Nat.two_pow_pos _⟩
  lastErr := Nat.zero_le _
  oneEnabled := fun i _ _ _ hi => by simp [slot_of_replicate (s := State.powerOn p) rfl i, Slot.empty] at hi
  headEnabled := fun i _ hi => by simp [slot_of_replicate (s := State.powerOn p) rfl i, Slot.empty] at hi
  slots := fun d _ => slotOK_of_empty (slot_of_replicate rfl d)
  held := rfl
  handles := rfl
  canonical := rfl
  positions := List.length_replicate

/-- R261: a reset keeps what the store holds, which is as it was. -/
theorem resetBlock_inv {s : State} (h : Inv s) : Inv (resetBlock s) :=
  inv_of_awaitFrame { sound_powerOn h.params with
    slots := fun d _ => slotOK_of_empty (slot_of_replicate rfl d)
    handles := h.handles
    canonical := h.canonical
    positions := h.positions } rfl (Nat.zero_le _) (.inr rfl)

/-- Settles O44: the state after power-on is sound, and waits with an empty frame. -/
theorem invariantHoldsAtReset : Obligations.InvariantHoldsAtReset := by
  have hpower : ∀ p : Params, p.wf = true → Inv (State.powerOn p) := fun p hp =>
    inv_of_awaitFrame (sound_powerOn hp) rfl (Nat.zero_le _) (.inr rfl)
  exact ⟨hpower Params.testConfig (by decide), hpower⟩

/-! ## Every step -/

theorem runEvent_inv {e : Event} {s t : State} (h : Inv s) (hrun : runEvent e s = .next t) : Inv t := by
  cases e with
  | engine => exact engineTurn_inv h hrun
  | byte b =>
    cases hrun
    exact byteArrives_inv h b
  | frameDeadline =>
    cases hrun
    exact frameDeadline_inv h
  | payloadTimeout =>
    cases hrun
    exact payloadTimeout_inv h
  | request r =>
    cases hrun
    exact operatorRequest_inv h r
  | performHeld =>
    cases hrun
    exact performHeld_inv h
  | status =>
    cases hrun
    exact readStatus_inv h
  | linkUp =>
    cases hrun
    exact linkUp_inv h
  | linkDown =>
    cases hrun
    exact linkDown_inv h
  | reset =>
    cases hrun
    exact resetBlock_inv h

theorem Inv.turns {s : State} (h : Inv s) (ts : List Event) : Inv { s with turns := ts } :=
  inv_iff.2 ⟨h.sound.turns ts, { h.phase with }⟩

/-- Settles O45: a step is a reset or an agent's event, on the state but for its list of turns. -/
theorem invariantIsKept : Obligations.InvariantIsKept := by
  intro s t h hstep
  obtain ⟨ts, ⟨-, rfl⟩ | ⟨-, -, hrun⟩⟩ := step_eq_next_turns hstep
  · exact resetBlock_inv (h.turns ts)
  · exact runEvent_inv (h.turns ts) hrun

end Sys2Proof.Machine
end

section
/-! PROOF. From a state of the invariant no step stops (60_exceptions.md R230), only the commit step writes a store
(20_memory.md R62, 44_writ.md R193), and what it wrote reads back (R192). -/

namespace Sys2Proof.Machine

open Sys2Proof.Claims

/-! ## No step is fatal (R230) -/

/-- R28: in a state of the invariant a mounted slot has an open store. -/
theorem openStore_of_mounted {s : State} (h : Sound s) {d : Nat} (hd : d < s.params.nDrives)
    (hmounted : (s.slot d).mounted = true) : ∃ hd f, s.openStore d = some (hd, f) := by
  have hslot := h.slots d hd
  rw [SlotOK, if_pos hmounted] at hslot
  obtain ⟨⟨hd, f⟩, hopen⟩ := Option.isSome_iff_exists.1 hslot.1
  exact ⟨hd, f, hopen⟩

theorem mounted_of_pass {s : State} {drv : BitVec 4} {trk : BitVec 12} {len : U16} (hpass : ¬CheckFails s drv trk len) :
    (s.slot drv.toNat).mounted = true := by
  by_contra hm
  exact hpass (.inl (Bool.eq_false_iff.2 hm))

theorem exists_next_ite {c : Prop} [Decidable c] {s t : State} :
    ∃ v, (if c then Host.Outcome.next s else .next t : Host.Outcome State Fault Refusal) = .next v := by
  split
  · exact ⟨s, rfl⟩
  · exact ⟨t, rfl⟩

/-- READ goes on: dropped for its index or a check, or read from the open store of its mounted drive. -/
theorem execRead_goes_on {s : State} (h : Inv s) (drv : BitVec 4) (trk : BitVec 12) (len : U16) :
    ∃ t, execRead drv trk len s = .next t := by
  by_cases hdrv : drv.toNat < s.params.nDrives
  · by_cases hpass : CheckFails s drv trk len
    · obtain ⟨c, hcheck, -⟩ := trackCheck_of_fails hpass
      exact ⟨_, execRead_of_check hdrv hcheck⟩
    · obtain ⟨hd, f, hopen⟩ := openStore_of_mounted h.sound hdrv (mounted_of_pass hpass)
      rw [execRead_of_pass hdrv (trackCheck_eq_none_iff.2 hpass),
        readTrack_of_openStore (s := s.bumpRead.aimed drv trk) (by simpa using hopen) rfl
          (by simpa using len_fits_of_pass h hpass)]
      exact exists_next_ite
  · exact ⟨_, execRead_of_invalid (Nat.le_of_not_lt hdrv)⟩

theorem execWrit_goes_on (s : State) (drv : BitVec 4) (trk : BitVec 12) (len : U16) :
    ∃ t, execWrit drv trk len s = .next t := by
  by_cases hdrv : drv.toNat < s.params.nDrives
  · by_cases hpass : CheckFails s drv trk len
    · obtain ⟨c, hcheck, -⟩ := trackCheck_of_fails hpass
      exact ⟨_, execWrit_of_check hdrv hcheck⟩
    · exact ⟨_, execWrit_of_pass hdrv (trackCheck_eq_none_iff.2 hpass)⟩
  · exact ⟨_, execWrit_of_invalid (Nat.le_of_not_lt hdrv)⟩

theorem exec_goes_on {s : State} {i : Instr} {k : Nat} (h : Inv s) (haddressed : addressed i = some k) :
    ∃ t, exec i s = .next t := by
  cases i with
  | stat sel hl trk => exact ⟨_, rfl⟩
  | read drv trk len => exact execRead_goes_on h drv trk len
  | writ drv trk len => exact execWrit_goes_on s drv trk len
  | statResp _ | writRdy _ | wsta _ | track _ | data _ _ => cases haddressed

/-- R190, R191: the write goes on with whatever the store takes. -/
theorem commitWrite_goes_on {s : State} (payload : List Byte) {h : Handle} {f : File}
    (hopen : s.openStore s.cmdDrv.toNat = some (h, f)) : ∃ t, commitWrite payload s = .next t := by
  rw [commitWrite_of_openStore hopen rfl rfl]
  exact exists_next_ite

/-- The commit step goes on: its drive is still mounted, and its block has the latched length. -/
theorem execData_goes_on {s : State} (h : Inv s) (hs : s.engState = .writCommit) {payload : List Byte} (k : U16)
    (hlen : payload.length = s.cmdLen.toNat) : ∃ t, execData payload k s = .next t := by
  by_cases hsum : checksum payload = k
  · subst hsum
    obtain ⟨hmounted, -⟩ := h.latched (by simp [State.writOpen, hs])
    obtain ⟨hd, f, hopen⟩ := openStore_of_mounted h.sound (latch_of_writCommit h hs).1 hmounted
    cases hseek : (storeSeek s.cmdDrv.toNat (offsetOf s.cmdTrk s.cmdLen) s).1 with
    | false => exact ⟨_, execData_of_seek_failed hlen hseek⟩
    | true =>
      obtain ⟨p, hp, -⟩ := storeSeek_snd s.cmdDrv.toNat (offsetOf s.cmdTrk s.cmdLen) s
      rw [execData_of_seek_ok hlen hseek, hp]
      refine commitWrite_goes_on payload (h := hd) (f := f) ?_
      rw [setPos_cmdDrv, answered_cmdDrv, ← hopen]
      exact openStore_congr (by simp) (by simp) (by simp)
  · exact ⟨_, execData_of_checksum_ne hlen hsum⟩

theorem engineTurn_goes_on {s : State} (h : Inv s) : ∃ t, engineTurn s = .next t := by
  cases hlink : s.linkOpen with
  | false => exact ⟨s, engineTurn_of_closed hlink⟩
  | true =>
    cases hs : s.engState with
    | awaitFrame => exact ⟨_, engineTurn_of_awaitFrame hlink hs⟩
    | dispatch =>
      rw [engineTurn_of_dispatch hlink hs]
      obtain ⟨i, k, haddressed, hrun⟩ | ⟨c, hdrop⟩ := dispatchStep_cases s
      · exact hrun ▸ exec_goes_on h haddressed
      · exact ⟨_, hdrop⟩
    | writPayload => exact ⟨_, engineTurn_of_writPayload hlink hs⟩
    | writCommit =>
      have hfits : s.cmdLen.toNat + 2 ≤ s.tb.length := block_fits_of_writCommit h.shape hs
      rw [engineTurn_of_writCommit hlink hs, commitStep_eq hfits]
      exact execData_goes_on h hs _ (List.length_take_of_le (by omega))

/-- Settles O46: the state has the rules' shape, so the step is the event, and only the engine's could have stopped. -/
theorem noStepIsFatal : Obligations.NoStepIsFatal := by
  intro s h
  obtain ⟨ts, hts⟩ := takeTurn_snd s
  have hinv : Inv { s with turns := ts } := h.turns ts
  have hturn : takeTurn s = ((takeTurn s).1, { s with turns := ts }) := by rw [← hts]
  rw [step_of_takeTurn hturn hinv.shape]
  cases (takeTurn s).1 with
  | engine => exact engineTurn_goes_on hinv
  | byte _ | frameDeadline | payloadTimeout | request _ | performHeld | status | linkUp | linkDown | reset =>
    exact ⟨_, rfl⟩

/-! ## Only the commit step writes a store (R62, R193) -/

/-- What it takes to change a byte of handle `h` at offset `a`: a good payload for that byte's track. -/
def CommitReaches (s : State) (h : Handle) (a : Nat) : Prop :=
  (s.slot s.cmdDrv.toNat).handle = some h ∧ offsetOf s.cmdTrk s.cmdLen ≤ a ∧
    a < offsetOf s.cmdTrk s.cmdLen + s.cmdLen.toNat ∧ checksum (s.tb.take s.cmdLen.toNat) = rd16 s.tb s.cmdLen.toNat

theorem commitReaches_of_changed {s t : State} {h : Handle} {a : Nat} {b : Byte} (hinv : Inv s)
    (hs : s.engState = .writCommit)
    (hexec : execData (s.tb.take s.cmdLen.toNat) (rd16 s.tb s.cmdLen.toNat) s = .next t)
    (hb : s.storeByte h a = some b) (hchanged : t.storeByte h a ≠ some b) : CommitReaches s h a := by
  have hfits : s.cmdLen.toNat + 2 ≤ s.tb.length := block_fits_of_writCommit hinv.shape hs
  have hlen : (s.tb.take s.cmdLen.toNat).length = s.cmdLen.toNat := List.length_take_of_le (by omega)
  have hpos : s.cmdDrv.toNat < s.storePos.length := lt_length_storePos hinv (latch_of_writCommit hinv hs).1
  have hspan := not_imp_comm.1 (dataWritesOnlyItsTrack s t _ _ h a b hpos hexec hb) hchanged
  rw [hlen, toNat_trackOffset] at hspan
  obtain ⟨hhandle, hlo, hhi⟩ := hspan
  refine ⟨hhandle, hlo, hhi, ?_⟩
  by_contra hsum
  rw [execData_of_checksum_ne hlen hsum] at hexec
  cases hexec
  exact hchanged hb

theorem takeFrameByte_files (s : State) : (takeFrameByte s).files = s.files := by
  unfold takeFrameByte
  split <;> rfl

theorem takePayloadByte_files (s : State) : (takePayloadByte s).files = s.files := by
  unfold takePayloadByte
  split <;> rfl

/-- R60: a command that addresses a drive is no DATA, so it leaves the stores. -/
theorem storesKept_of_addressed {i : Instr} {k : Nat} {s t : State} (haddressed : addressed i = some k)
    (h : exec i s = .next t) : StoresKept s t := by
  refine onlyDataWritesAStore i s t (fun payload k' hi => ?_) h
  subst hi
  cases haddressed

theorem engineTurn_changed {s t : State} {h : Handle} {a : Nat} {b : Byte} (hinv : Inv s)
    (hturn : engineTurn s = .next t) (hb : s.storeByte h a = some b) (hchanged : t.storeByte h a ≠ some b) :
    s.engState = .writCommit ∧ CommitReaches s h a := by
  obtain ⟨-, rfl⟩ | ⟨-, ⟨-, rfl⟩ | ⟨-, ⟨c, rfl⟩ | ⟨i, k, haddressed, hexec⟩⟩ | ⟨-, rfl⟩ | ⟨hs, hexec⟩⟩ :=
    engineTurn_eq_next hinv.shape hturn
  · exact absurd hb hchanged
  · exact absurd ((storeByte_congr (takeFrameByte_files s) h a).trans hb) hchanged
  · exact absurd hb hchanged
  · exact absurd ((storesKept_of_addressed haddressed hexec h a).trans hb) hchanged
  · exact absurd ((storeByte_congr (takePayloadByte_files s) h a).trans hb) hchanged
  · exact ⟨hs, commitReaches_of_changed hinv hs hexec hb hchanged⟩

/-- Log 7: a listed byte survives every event of another agent. -/
theorem storeByte_runEvent {e : Event} {s t : State} {h : Handle} {a : Nat} {b : Byte} (hengine : e ≠ .engine)
    (hrun : runEvent e s = .next t) (hb : s.storeByte h a = some b) : t.storeByte h a = some b := by
  cases e with
  | engine => exact absurd rfl hengine
  | request r =>
    cases hrun
    unfold operatorRequest
    split_ifs
    · exact hb
    · exact storeByte_performRequest r hb
    · exact hb
    · exact hb
  | performHeld =>
    cases hrun
    unfold performHeld
    split
    · split
      · exact storeByte_performRequest _ (s := { s with opPend := none }) hb
      · exact hb
    · exact hb
  | byte x =>
    cases hrun
    unfold byteArrives
    split <;> exact hb
  | frameDeadline =>
    cases hrun
    unfold frameDeadline
    split <;> exact hb
  | payloadTimeout =>
    cases hrun
    obtain hsame | ⟨-, htimeout⟩ := payloadTimeout_cases s
    · rwa [hsame]
    · rw [htimeout]
      exact hb
  | linkDown =>
    cases hrun
    unfold linkDown
    split <;> exact hb
  | status | linkUp | reset =>
    cases hrun
    exact hb

/-- Settles O50: of all events the engine's turn alone can change a listed byte, and it does so in the commit step. -/
theorem onlyTheCommitStepWritesStores : Obligations.OnlyTheCommitStepWritesStores := by
  intro s t h a b hinv hstep hb hchanged
  obtain ⟨ts, ⟨-, rfl⟩ | ⟨-, -, hrun⟩⟩ := step_eq_next_turns hstep
  · exact absurd hb hchanged
  · have hengine : (takeTurn s).1 = .engine := by
      by_contra hne
      exact hchanged (storeByte_runEvent (s := { s with turns := ts }) hne hrun hb)
    rw [hengine] at hrun
    exact ⟨hengine, engineTurn_changed (s := { s with turns := ts }) (hinv.turns ts) hrun hb hchanged⟩

/-! ## What was written reads back (R192) -/

theorem openStore_of_file {s : State} {d : Nat} {h : Handle} {f : File} (hmounted : (s.slot d).mounted = true)
    (hhandle : (s.slot d).handle = some h) (hfile : kvGet s.files h = some f) : s.openStore d = some (h, f) := by
  rw [State.openStore, hmounted, hhandle]
  simp [hfile]

/-- R181, 70 R277: the operands latched by a WRIT still pass the checks when its payload is committed. -/
theorem pass_of_writCommit {s : State} (h : Inv s) (hs : s.engState = .writCommit) :
    ¬CheckFails s s.cmdDrv s.cmdTrk s.cmdLen := by
  obtain ⟨-, hlen⟩ := latch_of_writCommit h hs
  obtain ⟨hmounted, htrk⟩ := h.latched (by simp [State.writOpen, hs])
  rw [BitVec.le_def, BitVec.toNat_setWidth_of_le (by decide)] at htrk
  simp only [CheckFails, hmounted, Bool.true_eq_false, false_or]
  omega

/-- The checks read nothing a row writes. -/
theorem checkFails_of_exec {i : Instr} {s t : State} (h : exec i s = .next t) (drv : BitVec 4) (trk : BitVec 12)
    (len : U16) : CheckFails t drv trk len ↔ CheckFails s drv trk len := by
  obtain ⟨hmounted, -, hmax⟩ := exec_slots h drv.toNat
  rw [CheckFails, CheckFails, hmounted, hmax, exec_params h]

theorem eq_of_storeBytes {s : State} {h : Handle} {off : Nat} {l l' : List Byte} (hlen : l.length = l'.length)
    (hl : ∀ i < l.length, s.storeByte h (off + i) = some (l.getD i 0))
    (hl' : ∀ i < l'.length, s.storeByte h (off + i) = some (l'.getD i 0)) : l = l' := by
  refine List.ext_getElem hlen fun i hi hi' => ?_
  have heq := (hl i hi).symm.trans (hl' i hi')
  rw [List.getD_eq_getElem _ _ hi, List.getD_eq_getElem _ _ hi'] at heq
  exact Option.some.inj heq

/-- Settles O28: behind the commit the drive's file is the written one, so a READ of the track finds the payload. -/
theorem writtenTrackReadsBack : Obligations.WrittenTrackReadsBack := by
  intro s payload hinv hs hstore hlen
  have hpass := pass_of_writCommit hinv hs
  obtain ⟨hdrv, -⟩ := latch_of_writCommit hinv hs
  obtain ⟨h, f, hopen⟩ := openStore_of_mounted hinv.sound hdrv (mounted_of_pass hpass)
  obtain ⟨hmounted, hhandle, hfile⟩ := openStore_eq_some hopen
  have hwf : f.wf = true := file_wf_of_inv hinv hfile
  have hexec : exec (.data payload (checksum payload)) s = _ := execData_reference hinv hs hstore hlen hopen
  have hopen' := openStore_of_file (s := answerWsta .ok
      ((s.setFile h (f.write (offsetOf s.cmdTrk s.cmdLen) [] payload)).setPos s.cmdDrv.toNat
        (offsetOf s.cmdTrk s.cmdLen + payload.length))) hmounted hhandle (kvGet_kvPut_same ..)
  obtain ⟨dt', bytes, -, hbytes, hread, hsent⟩ := readSendsTheTrack _ s.cmdDrv s.cmdTrk s.cmdLen h _
    (execData_inv hinv.sound hexec) hstore hdrv (mt (checkFails_of_exec hexec _ _ _).1 hpass) hopen'
    (by rw [File.size_write]; omega)
  have hsame : bytes = payload := eq_of_storeBytes (hbytes.trans hlen.symm) (hbytes ▸ hread) fun i hi => by
    rw [storeByte_of_openStore hopen', File.byte_write_inside _ _ hi hwf]
  subst hsame
  exact ⟨_, _, hexec, rfl, hsent, rfl, rfl⟩

end Sys2Proof.Machine
end

section
/-! PROOF. Noninterference of the diagnostics (10_state.md R30, R31, R33): two states that differ only in counters,
LAST_ERR, the snapshot, `curTrack` and flags take every step together. Each operation keeps the relation, and each value a
rule reads is the same on both sides. -/

namespace Sys2Proof.Machine

/-- `s` with the counters, LAST_ERR, the snapshot and the drive table of `x`. -/
def State.withDiagnosticsOf (s x : State) : State :=
  { s with
    statCnt := x.statCnt, readCnt := x.readCnt, writCnt := x.writCnt, errCnt := x.errCnt, lastErr := x.lastErr
    statusOut := x.statusOut, dt := x.dt }

@[simp] theorem withDiagnosticsOf_params (s x : State) : (s.withDiagnosticsOf x).params = s.params := rfl

@[simp] theorem withDiagnosticsOf_rx (s x : State) : (s.withDiagnosticsOf x).rx = s.rx := rfl

@[simp] theorem withDiagnosticsOf_linkOpen (s x : State) : (s.withDiagnosticsOf x).linkOpen = s.linkOpen := rfl

@[simp] theorem withDiagnosticsOf_draws (s x : State) : (s.withDiagnosticsOf x).draws = s.draws := rfl

end Sys2Proof.Machine

/-! ## The fields a rule reads are the same -/

namespace Sys2Proof.Claims.SameButDiagnostics

open Sys2Proof.Machine

section Fields

variable {s s' : State} (h : SameButDiagnostics s s')

include h

theorem params : s'.params = s.params := (congrArg State.params h.core :)

theorem engState : s'.engState = s.engState := (congrArg State.engState h.core :)

theorem fbCnt : s'.fbCnt = s.fbCnt := (congrArg State.fbCnt h.core :)

theorem fb : s'.fb = s.fb := (congrArg State.fb h.core :)

theorem tbCnt : s'.tbCnt = s.tbCnt := (congrArg State.tbCnt h.core :)

theorem tb : s'.tb = s.tb := (congrArg State.tb h.core :)

theorem cmdDrv : s'.cmdDrv = s.cmdDrv := (congrArg State.cmdDrv h.core :)

theorem cmdTrk : s'.cmdTrk = s.cmdTrk := (congrArg State.cmdTrk h.core :)

theorem cmdLen : s'.cmdLen = s.cmdLen := (congrArg State.cmdLen h.core :)

theorem opPend : s'.opPend = s.opPend := (congrArg State.opPend h.core :)

theorem tx : s'.tx = s.tx := (congrArg State.tx h.core :)

theorem linkOpen : s'.linkOpen = s.linkOpen := (congrArg State.linkOpen h.core :)

theorem files : s'.files = s.files := (congrArg State.files h.core :)

theorem storePos : s'.storePos = s.storePos := (congrArg State.storePos h.core :)

theorem draws : s'.draws = s.draws := (congrArg State.draws h.core :)

theorem drawCnt : s'.drawCnt = s.drawCnt := (congrArg State.drawCnt h.core :)

theorem turns : s'.turns = s.turns := (congrArg State.turns h.core :)

/-- The second state is the first with other diagnostics. -/
theorem exists_eq : ∃ x, s' = s.withDiagnosticsOf x :=
  ⟨s', (congrArg (State.withDiagnosticsOf · s') h.core :)⟩

theorem length_dt : s'.dt.length = s.dt.length := h.slots.1

theorem slot (j : Nat) : (s'.slot j).mounted = (s.slot j).mounted ∧ (s'.slot j).handle = (s.slot j).handle ∧
    (s'.slot j).maxTrack = (s.slot j).maxTrack := h.slots.2 j

theorem openStore (d : Nat) : s'.openStore d = s.openStore d :=
  openStore_congr (h.slot d).1 (h.slot d).2.1 h.files

theorem trackCheck (d : Nat) (trk : BitVec 12) (len : U16) : trackCheck d trk len s' = trackCheck d trk len s :=
  trackCheck_congr trk len h.params (h.slot d).1 (h.slot d).2.2

theorem mountMap : s'.mountMap = s.mountMap := by
  refine BitVec.eq_of_getLsbD_eq fun i hi => ?_
  rw [getLsbD_mountMap _ hi, getLsbD_mountMap _ hi, h.params, (h.slot i).1]

theorem peekDraw : s'.peekDraw = s.peekDraw := by
  rw [State.peekDraw, h.draws, h.drawCnt]
  rfl

theorem pos (d : Nat) : s'.pos d = s.pos d := by
  rw [State.pos, h.storePos]
  rfl

theorem readBytes (sought : Bool) (f : File) (d n : Nat) : s'.readBytes sought f d n = s.readBytes sought f d n := by
  rw [State.readBytes, State.readCount, h.pos, h.params, h.peekDraw]
  rfl

theorem writeCount (bytes : List Byte) : s'.writeCount bytes = s.writeCount bytes := by
  rw [State.writeCount, h.params, h.peekDraw]
  rfl

theorem written (f : File) (p : Nat) (bytes : List Byte) : s'.written f p bytes = s.written f p bytes := by
  rw [State.written, State.landed, State.extended, h.params, h.peekDraw, h.writeCount]
  rfl

theorem shapeFault : s'.shapeFault = s.shapeFault :=
  shapeFault_congr h.params h.engState h.fbCnt h.tbCnt (by rw [h.tb]) ⟨h.cmdDrv, h.cmdLen⟩ h.length_dt h.linkOpen

theorem heldDue : s'.heldDue = s.heldDue := by rw [State.heldDue, h.opPend, h.engState, State.heldDue]

end Fields

end Sys2Proof.Claims.SameButDiagnostics

namespace Sys2Proof.Machine

open Sys2Proof.Claims

/-! ## The relation is an equivalence, and a write of a diagnostic stays within it -/

section Equivalence

variable {s s' : State}

theorem same_symm (h : SameButDiagnostics s s') : SameButDiagnostics s' s := by
  have hlen := h.length_dt
  have hslot := h.slot
  obtain ⟨x, rfl⟩ := h.exists_eq
  exact ⟨rfl, hlen.symm, fun j => ⟨(hslot j).1.symm, (hslot j).2.1.symm, (hslot j).2.2.symm⟩⟩

theorem same_trans {t : State} (h : SameButDiagnostics s s') (h' : SameButDiagnostics s' t) : SameButDiagnostics s t := by
  have hlen := h'.length_dt.trans h.length_dt
  have hslot := fun j => (⟨(h'.slot j).1.trans (h.slot j).1, (h'.slot j).2.1.trans (h.slot j).2.1,
    (h'.slot j).2.2.trans (h.slot j).2.2⟩ : _ ∧ _ ∧ _)
  obtain ⟨x, rfl⟩ := h'.exists_eq
  obtain ⟨x, rfl⟩ := h.exists_eq
  exact ⟨rfl, hlen, hslot⟩

/-- Two states that each differ from one of two related states in diagnostics only are related. -/
theorem same_of_same {t t' : State} (h : SameButDiagnostics s s') (ht : SameButDiagnostics s t)
    (ht' : SameButDiagnostics s' t') : SameButDiagnostics t t' :=
  same_trans (same_symm ht) (same_trans h ht')

theorem same_self_raiseDiag (c : Diag) (s : State) : SameButDiagnostics s (raiseDiag c s) :=
  ⟨rfl, rfl, fun _ => ⟨rfl, rfl, rfl⟩⟩

theorem same_self_bumpStat (s : State) : SameButDiagnostics s s.bumpStat := ⟨rfl, rfl, fun _ => ⟨rfl, rfl, rfl⟩⟩

theorem same_self_bumpRead (s : State) : SameButDiagnostics s s.bumpRead := ⟨rfl, rfl, fun _ => ⟨rfl, rfl, rfl⟩⟩

theorem same_self_bumpWrit (s : State) : SameButDiagnostics s s.bumpWrit := ⟨rfl, rfl, fun _ => ⟨rfl, rfl, rfl⟩⟩

theorem same_self_readStatus (s : State) : SameButDiagnostics s (readStatus s) := ⟨rfl, rfl, fun _ => ⟨rfl, rfl, rfl⟩⟩

theorem same_self_select (d : Nat) (b : Bool) (s : State) : SameButDiagnostics s (s.select d b) :=
  ⟨rfl, length_selectDrive .., slot_select_keeps d b s⟩

theorem same_self_setCurTrack (d : Nat) (t : U16) (s : State) : SameButDiagnostics s (s.setCurTrack d t) :=
  ⟨rfl, List.length_modify .., slot_setCurTrack_keeps d t s⟩

theorem same_self_aimed (drv : BitVec 4) (trk : BitVec 12) (s : State) : SameButDiagnostics s (s.aimed drv trk) :=
  same_trans (same_self_select _ _ s) (same_self_setCurTrack _ _ _)

theorem same_self_statUpdate (sel hl : BitVec 8) (trk : U16) (s : State) :
    SameButDiagnostics s (statUpdate sel hl trk s) := by
  unfold statUpdate
  split
  · exact same_trans (same_self_select _ _ s) (same_self_setCurTrack _ _ _)
  · exact ⟨rfl, rfl, fun _ => ⟨rfl, rfl, rfl⟩⟩

theorem same_raiseDiag (h : SameButDiagnostics s s') (c : Diag) :
    SameButDiagnostics (raiseDiag c s) (raiseDiag c s') :=
  same_of_same h (same_self_raiseDiag c s) (same_self_raiseDiag c s')

end Equivalence

/-! ## An operation that neither reads nor writes a diagnostic -/

/-- `f` commutes with every change of the diagnostics. -/
def Blind (f : State → State) : Prop := ∀ s x : State, f (s.withDiagnosticsOf x) = (f s).withDiagnosticsOf x

theorem Blind.same {f : State → State} (hf : Blind f) {s s' : State} (h : SameButDiagnostics s s') :
    SameButDiagnostics (f s) (f s') := by
  have hdt : (f s).dt = s.dt := (congrArg State.dt (hf s s) :)
  have hlen := h.length_dt
  have hslot := h.slot
  obtain ⟨x, rfl⟩ := h.exists_eq
  rw [hf]
  refine ⟨rfl, hlen.trans (congrArg List.length hdt).symm, fun j => ?_⟩
  rw [slot_congr hdt]
  exact hslot j

theorem blind_finish : Blind finish := fun _ _ => rfl

theorem blind_answerReady (r : Readiness) : Blind (answerReady r) := by
  cases r <;> exact fun _ _ => rfl

theorem blind_answerTrack (bytes : List Byte) : Blind (answerTrack bytes) := fun _ _ => rfl

theorem blind_answerStat (map : U16) : Blind (answerStat map) := fun _ _ => rfl

theorem blind_answerWsta (o : WstaCode) : Blind (answerWsta o) := fun _ _ => rfl

theorem blind_latch (drv : BitVec 4) (trk : BitVec 12) (len : U16) : Blind (State.latch drv trk len) :=
  fun _ _ => rfl

theorem blind_setPos (d p : Nat) : Blind (State.setPos d p) := fun _ _ => rfl

theorem blind_setFile (h : Handle) (f : File) : Blind (State.setFile h f) := fun _ _ => rfl

theorem blind_turns (ts : List Event) : Blind fun s => { s with turns := ts } := fun _ _ => rfl

theorem blind_opPend (r : Option OpRequest) : Blind fun s => { s with opPend := r } := fun _ _ => rfl

theorem blind_linkUp : Blind linkUp := fun _ _ => rfl

theorem blind_linkDown : Blind linkDown := fun s x => by
  unfold linkDown
  rw [withDiagnosticsOf_linkOpen]
  split <;> rfl

theorem blind_byteArrives (b : Byte) : Blind (byteArrives b) := fun s x => by
  unfold byteArrives
  rw [withDiagnosticsOf_linkOpen]
  split <;> rfl

theorem blind_takeFrameByte : Blind takeFrameByte := fun s x => by
  unfold takeFrameByte
  rw [withDiagnosticsOf_rx]
  split <;> rfl

theorem blind_takePayloadByte : Blind takePayloadByte := fun s x => by
  unfold takePayloadByte
  rw [withDiagnosticsOf_rx]
  split <;> rfl

theorem blind_dropDraw : Blind State.dropDraw := fun s x => by
  unfold State.dropDraw
  rw [withDiagnosticsOf_draws]
  split <;> rfl

theorem blind_answered : Blind State.answered := fun s x => by
  unfold State.answered
  rw [withDiagnosticsOf_params]
  split
  · rfl
  · exact blind_dropDraw s x

/-! ## The rows take related states to related outcomes -/

/-- Both go on, to related states, or both stop for the same reason. -/
inductive SameOutcome : Host.Outcome State Fault Refusal → Host.Outcome State Fault Refusal → Prop
  | next {t t' : State} (h : SameButDiagnostics t t') : SameOutcome (.next t) (.next t')
  | fault (r : Fault) : SameOutcome (.fault r) (.fault r)
  | refused (r : Refusal) : SameOutcome (.refused r) (.refused r)

section Rows

variable {s s' : State}

theorem same_drop (h : SameButDiagnostics s s') (c : Diag) : SameButDiagnostics (drop c s) (drop c s') :=
  blind_finish.same (same_raiseDiag h c)

theorem same_storeSeek (h : SameButDiagnostics s s') (d off : Nat) :
    (storeSeek d off s').1 = (storeSeek d off s).1 ∧
      SameButDiagnostics (storeSeek d off s).2 (storeSeek d off s').2 := by
  cases hstore : s.params.store with
  | reference =>
    rw [storeSeek_reference d off hstore, storeSeek_reference d off (by rw [h.params, hstore])]
    exact ⟨rfl, (blind_setPos d off).same h⟩
  | oracle =>
    rw [storeSeek_oracle d off hstore, storeSeek_oracle d off (by rw [h.params, hstore]), h.peekDraw]
    exact ⟨rfl, (blind_setPos d _).same (blind_dropDraw.same h)⟩

theorem same_readSeek (h : SameButDiagnostics s s') (d off : Nat) :
    SameButDiagnostics (readSeek d off s) (readSeek d off s') := by
  obtain ⟨hok, hseek⟩ := same_storeSeek h d off
  unfold readSeek
  rw [hok]
  split
  · exact hseek
  · exact same_raiseDiag hseek _

theorem same_sendTrack (h : SameButDiagnostics s s') (bytes : List Byte) :
    SameOutcome (sendTrack bytes s) (sendTrack bytes s') := by
  unfold sendTrack
  rw [h.tb]
  split
  · exact .next ((blind_answerTrack bytes).same h)
  · exact .fault _

theorem same_readTransfer (h : SameButDiagnostics s s') (sought : Bool) (d : Nat) (len : U16) :
    SameOutcome (readTransfer sought d len s) (readTransfer sought d len s') := by
  unfold readTransfer storeRead
  rw [h.openStore]
  cases s.openStore d with
  | none => exact .fault _
  | some q =>
    simp only [h.readBytes, h.pos]
    have hread := (blind_setPos d (s.pos d + (s.readBytes sought q.2 d len.toNat).length)).same (blind_answered.same h)
    split
    · exact .next (same_drop hread _)
    · exact same_sendTrack hread _

theorem same_execRead (h : SameButDiagnostics s s') (drv : BitVec 4) (trk : BitVec 12) (len : U16) :
    SameOutcome (execRead drv trk len s) (execRead drv trk len s') := by
  have hbump := same_of_same h (same_self_bumpRead s) (same_self_bumpRead s')
  by_cases hdrv : drv.toNat < s.params.nDrives
  · have hdrv' : drv.toNat < s'.params.nDrives := h.params.symm ▸ hdrv
    cases hcheck : trackCheck drv.toNat trk len s with
    | some c =>
      rw [execRead_of_check hdrv hcheck, execRead_of_check hdrv' (by rw [h.trackCheck, hcheck])]
      exact .next (same_drop (same_of_same hbump (same_self_select _ _ _) (same_self_select _ _ _)) c)
    | none =>
      rw [execRead_of_pass hdrv hcheck, execRead_of_pass hdrv' (by rw [h.trackCheck, hcheck]), readTrack, readTrack]
      have haimed := same_of_same hbump (same_self_aimed drv trk _) (same_self_aimed drv trk _)
      rw [(same_storeSeek haimed _ _).1]
      exact same_readTransfer (same_readSeek haimed _ _) _ _ _
  · rw [execRead_of_invalid (Nat.le_of_not_lt hdrv), execRead_of_invalid (h.params.symm ▸ Nat.le_of_not_lt hdrv)]
    exact .next (same_drop hbump _)

theorem same_execWrit (h : SameButDiagnostics s s') (drv : BitVec 4) (trk : BitVec 12) (len : U16) :
    SameOutcome (execWrit drv trk len s) (execWrit drv trk len s') := by
  have hbump := same_of_same h (same_self_bumpWrit s) (same_self_bumpWrit s')
  by_cases hdrv : drv.toNat < s.params.nDrives
  · have hdrv' : drv.toNat < s'.params.nDrives := h.params.symm ▸ hdrv
    cases hcheck : trackCheck drv.toNat trk len s with
    | some c =>
      rw [execWrit_of_check hdrv hcheck, execWrit_of_check hdrv' (by rw [h.trackCheck, hcheck])]
      have hselect := same_of_same hbump (same_self_select drv.toNat true _) (same_self_select drv.toNat true _)
      exact .next ((blind_answerReady _).same (same_raiseDiag hselect c))
    | none =>
      rw [execWrit_of_pass hdrv hcheck, execWrit_of_pass hdrv' (by rw [h.trackCheck, hcheck])]
      have haimed := same_of_same hbump (same_self_aimed drv trk _) (same_self_aimed drv trk _)
      exact .next ((blind_answerReady _).same ((blind_latch drv trk len).same haimed))
  · rw [execWrit_of_invalid (Nat.le_of_not_lt hdrv), execWrit_of_invalid (h.params.symm ▸ Nat.le_of_not_lt hdrv)]
    exact .next (same_drop hbump _)

theorem same_commitWrite (h : SameButDiagnostics s s') (payload : List Byte) :
    SameOutcome (commitWrite payload s) (commitWrite payload s') := by
  unfold commitWrite storeWrite
  rw [h.cmdDrv, h.openStore]
  cases s.openStore s.cmdDrv.toNat with
  | none => exact .fault _
  | some q =>
    simp only [h.writeCount, h.pos, h.written]
    have hwrite := (blind_setPos s.cmdDrv.toNat (s.pos s.cmdDrv.toNat + s.writeCount payload)).same
      ((blind_setFile q.1 (s.written q.2 (s.pos s.cmdDrv.toNat) payload)).same (blind_answered.same h))
    split
    · exact .next ((blind_answerWsta _).same (same_raiseDiag hwrite _))
    · exact .next ((blind_answerWsta _).same hwrite)

theorem same_execData (h : SameButDiagnostics s s') (payload : List Byte) (k : U16) :
    SameOutcome (execData payload k s) (execData payload k s') := by
  unfold execData
  rw [h.cmdDrv, h.cmdTrk, h.cmdLen]
  obtain ⟨hok, hseek⟩ := same_storeSeek h s.cmdDrv.toNat (trackOffset s.cmdTrk s.cmdLen).toNat
  rw [hok]
  split_ifs
  · exact same_commitWrite hseek payload
  · exact .next ((blind_answerWsta _).same (same_raiseDiag hseek _))
  · exact .next ((blind_answerWsta _).same (same_raiseDiag h _))
  · exact .fault _

theorem same_execStat (h : SameButDiagnostics s s') (sel hl : BitVec 8) (trk : U16) :
    SameOutcome (execStat sel hl trk s) (execStat sel hl trk s') := by
  have hbump := same_of_same h (same_self_bumpStat s) (same_self_bumpStat s')
  have hupdate := same_of_same hbump (same_self_statUpdate sel hl trk _) (same_self_statUpdate sel hl trk _)
  unfold execStat
  rw [hupdate.mountMap]
  exact .next ((blind_answerStat _).same hupdate)

theorem same_exec (h : SameButDiagnostics s s') (i : Instr) : SameOutcome (exec i s) (exec i s') := by
  cases i with
  | stat sel hl trk => exact same_execStat h sel hl trk
  | read drv trk len => exact same_execRead h drv trk len
  | writ drv trk len => exact same_execWrit h drv trk len
  | statResp map => exact .next ((blind_answerStat map).same h)
  | writRdy r => exact .next ((blind_answerReady r).same h)
  | wsta o => exact .next ((blind_answerWsta o).same h)
  | track bytes => exact same_sendTrack h bytes
  | data payload k => exact same_execData h payload k

/-! ## So do the events -/

theorem same_dispatchStep (h : SameButDiagnostics s s') : SameOutcome (dispatchStep s) (dispatchStep s') := by
  unfold dispatchStep
  rw [h.fb]
  split
  case h_1 => exact same_exec h _
  case h_2 | h_3 => exact .next (same_drop h _)
  case h_4 | h_5 | h_6 => exact .fault _

theorem same_commitStep (h : SameButDiagnostics s s') : SameOutcome (commitStep s) (commitStep s') := by
  unfold commitStep
  rw [h.cmdLen, h.tb]
  split
  · exact same_exec h _
  · exact .fault _

theorem same_engineTurn (h : SameButDiagnostics s s') : SameOutcome (engineTurn s) (engineTurn s') := by
  unfold engineTurn
  rw [h.linkOpen, h.engState]
  split
  · cases s.engState with
    | awaitFrame => exact .next (blind_takeFrameByte.same h)
    | dispatch => exact same_dispatchStep h
    | writPayload => exact .next (blind_takePayloadByte.same h)
    | writCommit => exact same_commitStep h
  · exact .next h

theorem same_frameDeadline (h : SameButDiagnostics s s') : SameButDiagnostics (frameDeadline s) (frameDeadline s') := by
  unfold frameDeadline
  rw [h.engState, h.fbCnt]
  split
  · exact Blind.same (f := fun s => { s with fbCnt := 0 }) (fun _ _ => rfl) (same_raiseDiag h _)
  · exact h

theorem same_payloadTimeout (h : SameButDiagnostics s s') :
    SameButDiagnostics (payloadTimeout s) (payloadTimeout s') := by
  unfold payloadTimeout
  rw [h.engState]
  split
  · exact (blind_answerWsta _).same (same_raiseDiag h _)
  · exact h

/-- R214: whether a slot is emptied depends on `mounted`, and what it keeps are the fields the relation compares. -/
theorem same_unmountSlot {x x' : Slot}
    (h : x'.mounted = x.mounted ∧ x'.handle = x.handle ∧ x'.maxTrack = x.maxTrack) :
    (unmountSlot x').mounted = (unmountSlot x).mounted ∧ (unmountSlot x').handle = (unmountSlot x).handle ∧
      (unmountSlot x').maxTrack = (unmountSlot x).maxTrack := by
  unfold unmountSlot
  rw [h.1]
  split
  · exact ⟨rfl, rfl, rfl⟩
  · exact h

theorem same_performRequest (h : SameButDiagnostics s s') (r : OpRequest) :
    SameButDiagnostics (performRequest r s) (performRequest r s') := by
  have hlen : (performRequest r s').dt.length = (performRequest r s).dt.length := by
    rw [length_dt_performRequest, length_dt_performRequest, h.length_dt]
  have hslots := h.slot
  have hparams := h.params
  have hdt := h.length_dt
  cases hok : r.accepted s.params with
  | false => rwa [performRequest_of_refused hok, performRequest_of_refused (by rw [hparams, hok])]
  | true =>
    cases r with
    | mount d hd size =>
      have hd1 : d < s.params.nDrives := of_decide_eq_true hok
      have hslot := slot_performRequest_mount hd size hd1
      have hslot' := slot_performRequest_mount (s := s') hd size (hparams.symm ▸ hd1)
      refine ⟨?_, hlen, fun j => ?_⟩
      · rw [performRequest_mount hd size hd1, performRequest_mount (s := s') hd size (hparams.symm ▸ hd1)]
        obtain ⟨x, rfl⟩ := h.exists_eq
        rfl
      · rw [hslot, hslot', hdt, hparams]
        split
        · exact ⟨rfl, rfl, rfl⟩
        · exact hslots j
    | unmount d =>
      have hd1 : d < s.params.nDrives := of_decide_eq_true hok
      have hslot := slot_performRequest_unmount hd1
      have hslot' := slot_performRequest_unmount (s := s') (hparams.symm ▸ hd1)
      refine ⟨?_, hlen, fun j => ?_⟩
      · rw [performRequest_unmount hd1, performRequest_unmount (s := s') (hparams.symm ▸ hd1)]
        obtain ⟨x, rfl⟩ := h.exists_eq
        rfl
      · rw [hslot, hslot', hdt]
        split
        · exact same_unmountSlot (hslots j)
        · exact hslots j

theorem same_operatorRequest (h : SameButDiagnostics s s') (r : OpRequest) :
    SameButDiagnostics (operatorRequest r s) (operatorRequest r s') := by
  by_cases hs : s.engState = .awaitFrame
  · have hs' : s'.engState = .awaitFrame := h.engState.trans hs
    cases hpend : s.opPend with
    | some q =>
      rw [operatorRequest_of_held r (by rw [hpend]; rfl), operatorRequest_of_held r (by rw [h.opPend, hpend]; rfl)]
      exact h
    | none =>
      rw [operatorRequest_of_awaitFrame r hpend hs, operatorRequest_of_awaitFrame r (h.opPend.trans hpend) hs']
      exact same_performRequest h r
  · have hcond : (s'.opPend = none ∧ r.accepted s'.params = true) ↔ (s.opPend = none ∧ r.accepted s.params = true) := by
      rw [h.opPend, h.params]
    rw [operatorRequest_of_not_awaitFrame r hs, operatorRequest_of_not_awaitFrame r (h.engState.symm ▸ hs)]
    simp only [hcond]
    split
    · exact (blind_opPend (some r)).same h
    · exact h

theorem same_performHeld (h : SameButDiagnostics s s') : SameButDiagnostics (performHeld s) (performHeld s') := by
  by_cases hs : s.engState = .awaitFrame
  · cases hpend : s.opPend with
    | some r =>
      rw [performHeld_of_awaitFrame hpend hs,
        performHeld_of_awaitFrame (h.opPend.trans hpend) (h.engState.trans hs)]
      exact same_performRequest ((blind_opPend none).same h) r
    | none =>
      rw [performHeld_of_none hpend, performHeld_of_none (h.opPend.trans hpend)]
      exact h
  · rw [performHeld_of_not_awaitFrame hs, performHeld_of_not_awaitFrame (h.engState.symm ▸ hs)]
    exact h

theorem same_resetBlock (h : SameButDiagnostics s s') : SameButDiagnostics (resetBlock s) (resetBlock s') := by
  obtain ⟨x, rfl⟩ := h.exists_eq
  exact ⟨rfl, rfl, fun _ => ⟨rfl, rfl, rfl⟩⟩

theorem same_runEvent (h : SameButDiagnostics s s') (e : Event) : SameOutcome (runEvent e s) (runEvent e s') := by
  cases e with
  | engine => exact same_engineTurn h
  | byte b => exact .next ((blind_byteArrives b).same h)
  | frameDeadline => exact .next (same_frameDeadline h)
  | payloadTimeout => exact .next (same_payloadTimeout h)
  | request r => exact .next (same_operatorRequest h r)
  | performHeld => exact .next (same_performHeld h)
  | status => exact .next (same_of_same h (same_self_readStatus s) (same_self_readStatus s'))
  | linkUp => exact .next (blind_linkUp.same h)
  | linkDown => exact .next (blind_linkDown.same h)
  | reset => exact .next (same_resetBlock h)

/-- R240: whose step it is depends on the turns, the held request and ENG_STATE. -/
theorem same_takeTurn (h : SameButDiagnostics s s') :
    (takeTurn s').1 = (takeTurn s).1 ∧ SameButDiagnostics (takeTurn s).2 (takeTurn s').2 := by
  unfold takeTurn
  rw [h.turns, h.heldDue]
  split
  · exact ⟨rfl, (blind_turns _).same h⟩
  · exact ⟨rfl, (blind_turns _).same h⟩
  · split <;> exact ⟨rfl, h⟩
  · split
    · exact ⟨rfl, h⟩
    · exact ⟨rfl, (blind_turns _).same h⟩

theorem same_step (h : SameButDiagnostics s s') : SameOutcome (step s) (step s') := by
  obtain ⟨hevent, hturn⟩ := same_takeTurn h
  unfold step runTurn
  rw [hevent, hturn.shapeFault]
  split
  · exact .next (same_resetBlock hturn)
  · split
    · exact .fault _
    · exact same_runEvent hturn _

end Rows

/-- Settles O52: related states take related steps, and the relation fixes the streams and the files. -/
theorem diagnosticsNeverReachTheWire : Obligations.DiagnosticsNeverReachTheWire := by
  intro s s' t h hstep
  have hsame : SameOutcome (.next t) (step s') := hstep ▸ same_step h
  cases hstep' : step s' with
  | next t' =>
    rw [hstep'] at hsame
    obtain ⟨ht⟩ := hsame
    exact ⟨t', rfl, ht, ht.tx, ht.files⟩
  | fault r =>
    rw [hstep'] at hsame
    cases hsame
  | refused r =>
    rw [hstep'] at hsame
    cases hsame

end Sys2Proof.Machine
end
